-- ==== Sys2Proof/Word.lean ====
section
/-! DEFINITION. The word types of the block: bytes, clock samples, event words, micro-operation words, texts. -/

namespace Sys2Proof

/-- One byte of the serial line or of a buffer (20_memory.md R70, R77: bit 7 is the most significant). -/
abbrev Byte := BitVec 8

/-- A clock sample of `CLK_W <= 32` bits, zero-extended to 32 (10_state.md R47, 30_encoding.md R108). -/
abbrev Clock := BitVec 32

/-- A host event word (30_encoding.md R106). -/
abbrev EventWord := BitVec 64

/-- A micro-operation word of the model: the code of 30_encoding.md R118 in bits 7..0 and operand
fields above it. DESIGN CHOICE (log 4): the spec gives the code and no operand fields. -/
abbrev MicroWord := BitVec 40

/-- A text as its list of characters (30_encoding.md R103, R105, R115). -/
abbrev Text := List Char

end Sys2Proof
end

