-- ==== Sys2Proof/Config.lean ====
section
/-! DEFINITION. The named parameters of 00_scope.md (R10 to R14), and the one free value of the model. -/

namespace Sys2Proof

/-- `FAULT_POLARITY` (00_scope.md R14): how the fault-present flag is read from frame byte 27. -/
inductive FaultPolarity where
  | intended
  | sourceLiteral
  deriving DecidableEq, Repr

/-- The parameters a model takes as arguments (00_scope.md R10, R11, R13, R14). They are no state of
the block; `State.cfg` carries them beside it and no step writes them (DESIGN CHOICE, log 1). -/
structure Config where
  /-- `CLK_W`, R10. -/
  clkW : Nat
  /-- `SCAN_PERIOD_RESET_MS`, R11. -/
  scanPeriodResetMs : Nat
  /-- `RX_FIFO_DEPTH`, R13. -/
  rxFifoDepth : Nat
  /-- `FAULT_POLARITY`, R14. -/
  faultPolarity : FaultPolarity
  deriving DecidableEq, Repr

/-- The ranges 00_scope.md R10, R11 and R13 require of the parameters. -/
abbrev Config.Wf (c : Config) : Prop :=
  14 ≤ c.clkW ∧ c.clkW ≤ 32 ∧
  5000 ≤ c.scanPeriodResetMs ∧ c.scanPeriodResetMs ≤ 10000 ∧
  1 ≤ c.rxFifoDepth

/-- The clock modulus `MOD = 2^CLK_W` (00_scope.md R10). -/
def Config.modulus (c : Config) : Nat := 2 ^ c.clkW

/-- The parameter values of every test vector of 95_test_vectors.md; `State.reset` stands at them
(DESIGN CHOICE, log 2). -/
def Config.vectors : Config :=
  { clkW := 32, scanPeriodResetMs := 5000, rxFifoDepth := 64, faultPolarity := .intended }

/-- FREE VALUE (log 7): the byte a buffer entry that holds no value reads as, for the reset epoch and
the offset (10_state.md R33, R36; 93_implementation_defined.md I5). Nothing is known of it. -/
opaque Config.noValue : Nat → Nat → Byte

end Sys2Proof
end

