-- ==== Sys2Proof/Syntax.lean ====
section
/-! DEFINITION. The operations of spec/opcode_table.json, one constructor per row, and the words that
carry them. -/

namespace Sys2Proof

/-- The factor of `FXP_SCALE` (40_byte_decoder.md R134): 100 or 10, no other. -/
inductive ScaleFactor where
  | x100
  | x10
  deriving DecidableEq, Repr

/-- One constructor per row of spec/opcode_table.json: the five host events (30_encoding.md R107) and
the seventeen micro-operations (30_encoding.md R118), in the table's order. -/
inductive Instr where
  /-- `ITER`, 43_poll_scheduler.md R210. -/
  | iter (ready : Bool) (now : Clock)
  /-- `RX_ARRIVE`, 41_frame_assembler.md R151. -/
  | rxArrive (data : Byte)
  /-- `CFG_SCAN_PERIOD`, 43_poll_scheduler.md R224; `seconds` is read as two's complement. -/
  | cfgScanPeriod (seconds : BitVec 32)
  /-- `CFG_RAW_PUBLISH`, 43_poll_scheduler.md R226; `value` is read as unsigned. -/
  | cfgRawPublish (value : BitVec 32)
  /-- `RESET`, 70_reset_and_hazards.md R270. -/
  | reset
  /-- `DRAIN`, 41_frame_assembler.md R154. -/
  | drain
  /-- `RX_ACCEPT`, 41_frame_assembler.md R156. -/
  | rxAccept (b : Byte)
  /-- `FRAME_COMPLETE`, 41_frame_assembler.md R157. -/
  | frameComplete
  /-- `TIMEOUT_CHECK`, 41_frame_assembler.md R159. -/
  | timeoutCheck (now : Clock)
  /-- `REQ_ISSUE`, 41_frame_assembler.md R152. -/
  | reqIssue (now : Clock)
  /-- `SCHED_CHECK`, 43_poll_scheduler.md R213. -/
  | schedCheck (now : Clock)
  /-- `DECODE_PUBLISH`, 43_poll_scheduler.md R217. -/
  | decodePublish
  /-- `FXP_DECODE`, 40_byte_decoder.md R130. -/
  | fxpDecode (msb lsb : Byte)
  /-- `FXP_SCALE`, 40_byte_decoder.md R134; the operand is `Scaled(raw, -2)`, `raw` in two's complement. -/
  | fxpScale (raw : BitVec 16) (factor : ScaleFactor)
  /-- `FLAG_TEST`, 40_byte_decoder.md R135. -/
  | flagTest (byte mask : Byte)
  /-- `HEX_DIGIT`, 40_byte_decoder.md R137. -/
  | hexDigit (n : Byte)
  /-- `DECODE_FRAME`, 42_status_decoder.md R181; its operand is the 32 bytes of `hand_buf`. -/
  | decodeFrame
  /-- `PRESSURE_SELECT`, 42_status_decoder.md R183; `p` is the raw of `Scaled(p, -2)`. -/
  | pressureSelect (p : BitVec 16) (hp : Bool)
  /-- `FAULT_FLAG`, 42_status_decoder.md R184. -/
  | faultFlag (b27 : Byte)
  /-- `STATUS_EXTEND`, 42_status_decoder.md R185. -/
  | statusExtend (r f : Byte) (fault : Bool)
  /-- `DESC_LOOKUP`, 42_status_decoder.md R188. -/
  | descLookup (c : BitVec 9)
  /-- `HEX_ECHO`, 42_status_decoder.md R190; its operand is the 32 bytes of `hand_buf`. -/
  | hexEcho
  deriving DecidableEq, Repr

/-- A word that starts one operation. Only an event word can come from a host; a micro-operation has no
encoding a host can send (30_encoding.md R118), and the model carries one in a word of its own so that
each row of the opcode table can be run by itself (DESIGN CHOICE, log 4). -/
inductive Code where
  | event (w : EventWord)
  | micro (u : MicroWord)
  deriving DecidableEq, Repr

/-- The words a host can send (30_encoding.md R106, R118). -/
def Code.isEvent : Code → Bool
  | .event _ => true
  | .micro _ => false

/-- The host events of the opcode table (rows of format `event`). -/
def Instr.isEvent : Instr → Bool
  | .iter _ _ | .rxArrive _ | .cfgScanPeriod _ | .cfgRawPublish _ | .reset => true
  | .drain | .rxAccept _ | .frameComplete | .timeoutCheck _ | .reqIssue _ | .schedCheck _
  | .decodePublish | .fxpDecode _ _ | .fxpScale _ _ | .flagTest _ _ | .hexDigit _ | .decodeFrame
  | .pressureSelect _ _ | .faultFlag _ | .statusExtend _ _ _ | .descLookup _ | .hexEcho => false

end Sys2Proof
end

