-- ==== Sys2Proof/WellFormed.lean ====
section
/-! DEFINITION. Which instructions a machine with given parameters has: the only operand with a value
that can be out of range is a clock sample. -/

namespace Sys2Proof

/-- A clock sample has `CLK_W` bits: the bits above them are zero (30_encoding.md R108, R117). -/
def Clock.wf (c : Config) (now : Clock) : Bool := decide (now.toNat < c.modulus)

/-- Well-formed instructions: every clock-sample operand (`ITER`, and the micro-operations that take the
iteration's `now`) has `CLK_W` bits. Every other operand may be any value of its width. -/
def Instr.wf (c : Config) : Instr → Bool
  | .iter _ now => Clock.wf c now
  | .timeoutCheck now => Clock.wf c now
  | .reqIssue now => Clock.wf c now
  | .schedCheck now => Clock.wf c now
  | .rxArrive _ | .cfgScanPeriod _ | .cfgRawPublish _ | .reset
  | .drain | .rxAccept _ | .frameComplete | .decodePublish
  | .fxpDecode _ _ | .fxpScale _ _ | .flagTest _ _ | .hexDigit _ | .decodeFrame
  | .pressureSelect _ _ | .faultFlag _ | .statusExtend _ _ _ | .descLookup _ | .hexEcho => true

end Sys2Proof
end

