-- ==== Sys2Proof/Decode.lean ====
section
/-! DEFINITION. The decoder of event words (30_encoding.md R106 to R113, R117, R121) and of the model's
micro-operation words (R118 for the codes, log 4 for the operand fields), total, rejecting by name; and
after it the encoder. -/

namespace Sys2Proof

/-- Why a word is refused (30_encoding.md R117). -/
inductive DecodeError where
  /-- The kind is `0x0` or `0x5`..`0xE`. -/
  | reservedKind
  /-- A reserved bit of the word's format is non-zero. -/
  | reservedBits
  /-- A clock sample with a non-zero bit at or above `CLK_W`. -/
  | clockBits
  /-- No micro-operation has this code (model's own words only, log 4). -/
  | noSuchMicroOp
  deriving DecidableEq, Repr

/-- The bits `len` long from bit `lo` up: `w[lo+len-1:lo]` (00_scope.md R16). -/
def bitsAt {n : Nat} (w : BitVec n) (lo len : Nat) : BitVec len := w.extractLsb' lo len

/-- Accept the operation when its reserved bits are zero. -/
def whenReservedZero {n : Nat} (reserved : BitVec n) (i : Instr) : Except DecodeError Instr :=
  if reserved = 0 then .ok i else .error .reservedBits

/-- Accept an operation with a clock sample when the sample has `CLK_W` bits (R108, R117). -/
def whenClock (c : Config) (now : Clock) (i : Instr) : Except DecodeError Instr :=
  if Clock.wf c now then .ok i else .error .clockBits

/-- Decode a host event word: the kind `w[63:60]` alone tells the format (30_encoding.md R107 to R113,
R116). -/
def decodeEvent (c : Config) (w : EventWord) : Except DecodeError Instr :=
  match (bitsAt w 60 4).toNat with
  | 0x1 =>
    if bitsAt w 33 27 = 0 then
      whenClock c (bitsAt w 0 32) (.iter (w.getLsbD 32) (bitsAt w 0 32))
    else .error .reservedBits
  | 0x2 => whenReservedZero (bitsAt w 8 52) (.rxArrive (bitsAt w 0 8))
  | 0x3 => whenReservedZero (bitsAt w 32 28) (.cfgScanPeriod (bitsAt w 0 32))
  | 0x4 => whenReservedZero (bitsAt w 32 28) (.cfgRawPublish (bitsAt w 0 32))
  | 0xF => whenReservedZero (bitsAt w 0 60) .reset
  | _ => .error .reservedKind

/-- The factor bit of a micro-operation word `FXP_SCALE` (log 4): clear means 100, set means 10. -/
def scaleFactorOfBit : Bool → ScaleFactor
  | false => .x100
  | true => .x10

/-- Decode a micro-operation word: the code of 30_encoding.md R118 in bits 7..0, the operands above it
from bit 8 up in the order the operation lists them, every other bit zero (log 4). -/
def decodeMicro (c : Config) (u : MicroWord) : Except DecodeError Instr :=
  match (bitsAt u 0 8).toNat with
  | 0x01 => whenReservedZero (bitsAt u 8 32) .drain
  | 0x02 => whenReservedZero (bitsAt u 16 24) (.rxAccept (bitsAt u 8 8))
  | 0x03 => whenReservedZero (bitsAt u 8 32) .frameComplete
  | 0x04 => whenClock c (bitsAt u 8 32) (.timeoutCheck (bitsAt u 8 32))
  | 0x05 => whenClock c (bitsAt u 8 32) (.reqIssue (bitsAt u 8 32))
  | 0x06 => whenClock c (bitsAt u 8 32) (.schedCheck (bitsAt u 8 32))
  | 0x07 => whenReservedZero (bitsAt u 8 32) .decodePublish
  | 0x10 =>
    whenReservedZero (bitsAt u 24 16) (.fxpDecode (bitsAt u 8 8) (bitsAt u 16 8))
  | 0x11 =>
    whenReservedZero (bitsAt u 25 15) (.fxpScale (bitsAt u 8 16) (scaleFactorOfBit (u.getLsbD 24)))
  | 0x12 =>
    whenReservedZero (bitsAt u 24 16) (.flagTest (bitsAt u 8 8) (bitsAt u 16 8))
  | 0x13 => whenReservedZero (bitsAt u 16 24) (.hexDigit (bitsAt u 8 8))
  | 0x20 => whenReservedZero (bitsAt u 8 32) .decodeFrame
  | 0x21 =>
    whenReservedZero (bitsAt u 25 15) (.pressureSelect (bitsAt u 8 16) (u.getLsbD 24))
  | 0x22 => whenReservedZero (bitsAt u 16 24) (.faultFlag (bitsAt u 8 8))
  | 0x23 =>
    whenReservedZero (bitsAt u 25 15)
      (.statusExtend (bitsAt u 8 8) (bitsAt u 16 8) (u.getLsbD 24))
  | 0x24 => whenReservedZero (bitsAt u 17 23) (.descLookup (bitsAt u 8 9))
  | 0x25 => whenReservedZero (bitsAt u 8 32) .hexEcho
  | _ => .error .noSuchMicroOp

/-- Decoding, total on every word (30_encoding.md R121). -/
def decode (c : Config) : Code → Except DecodeError Instr
  | .event w => decodeEvent c w
  | .micro u => decodeMicro c u

/-- The factor bit of a micro-operation word `FXP_SCALE` (log 4). -/
def ScaleFactor.bit : ScaleFactor → Bool
  | .x100 => false
  | .x10 => true

/-- A field placed at bit `lo` of a word of zeros (00_scope.md R16). -/
def fieldAt {k : Nat} (n : Nat) (field : BitVec k) (lo : Nat) : BitVec n := field.setWidth n <<< lo

/-- The word of an instruction, from the layouts of 30_encoding.md R107 to R112 and the codes of R118. -/
def encode : Instr → Code
  | .iter ready now =>
    .event (fieldAt 64 0x1#4 60 ||| fieldAt 64 (BitVec.ofBool ready) 32 ||| fieldAt 64 now 0)
  | .rxArrive data => .event (fieldAt 64 0x2#4 60 ||| fieldAt 64 data 0)
  | .cfgScanPeriod seconds => .event (fieldAt 64 0x3#4 60 ||| fieldAt 64 seconds 0)
  | .cfgRawPublish value => .event (fieldAt 64 0x4#4 60 ||| fieldAt 64 value 0)
  | .reset => .event (fieldAt 64 0xF#4 60)
  | .drain => .micro (fieldAt 40 0x01#8 0)
  | .rxAccept b => .micro (fieldAt 40 0x02#8 0 ||| fieldAt 40 b 8)
  | .frameComplete => .micro (fieldAt 40 0x03#8 0)
  | .timeoutCheck now => .micro (fieldAt 40 0x04#8 0 ||| fieldAt 40 now 8)
  | .reqIssue now => .micro (fieldAt 40 0x05#8 0 ||| fieldAt 40 now 8)
  | .schedCheck now => .micro (fieldAt 40 0x06#8 0 ||| fieldAt 40 now 8)
  | .decodePublish => .micro (fieldAt 40 0x07#8 0)
  | .fxpDecode msb lsb =>
    .micro (fieldAt 40 0x10#8 0 ||| fieldAt 40 msb 8 ||| fieldAt 40 lsb 16)
  | .fxpScale raw factor =>
    .micro (fieldAt 40 0x11#8 0 ||| fieldAt 40 raw 8 ||| fieldAt 40 (BitVec.ofBool factor.bit) 24)
  | .flagTest byte mask =>
    .micro (fieldAt 40 0x12#8 0 ||| fieldAt 40 byte 8 ||| fieldAt 40 mask 16)
  | .hexDigit n => .micro (fieldAt 40 0x13#8 0 ||| fieldAt 40 n 8)
  | .decodeFrame => .micro (fieldAt 40 0x20#8 0)
  | .pressureSelect p hp =>
    .micro (fieldAt 40 0x21#8 0 ||| fieldAt 40 p 8 ||| fieldAt 40 (BitVec.ofBool hp) 24)
  | .faultFlag b27 => .micro (fieldAt 40 0x22#8 0 ||| fieldAt 40 b27 8)
  | .statusExtend r f fault =>
    .micro (fieldAt 40 0x23#8 0 ||| fieldAt 40 r 8 ||| fieldAt 40 f 16 |||
      fieldAt 40 (BitVec.ofBool fault) 24)
  | .descLookup c => .micro (fieldAt 40 0x24#8 0 ||| fieldAt 40 c 8)
  | .hexEcho => .micro (fieldAt 40 0x25#8 0)

/-- The word of an opcode-table row of `nbits` bits, the operand bits above them zero: an event row has
64 bits (30_encoding.md R116), a micro-operation row 8 (R118). -/
def codeOfTable (nbits w : Nat) : Code :=
  if nbits ≤ 40 then .micro (BitVec.ofNat 40 (w % 2 ^ nbits)) else .event (BitVec.ofNat 64 w)

/-- What the decoder reads from the word of an opcode-table row, for the parameters of the table's
masks (`CLK_W = 32`, 30_encoding.md R108). -/
def decodeTableWord (nbits w : Nat) : Option Instr :=
  match decode Config.vectors (codeOfTable nbits w) with
  | .ok i => some i
  | .error _ => none

end Sys2Proof
end

