-- ==== Sys2Proof/Machine/State.lean ====
section
/-! DEFINITION. The state of the block (10_state.md R30), the output events (R48), the reasons a step can
stop, and the launch state (70_reset_and_hazards.md R271). Plain data. -/

namespace Sys2Proof.Machine

/-- `acq_state` (10_state.md R31): `IDLE` (0) or `AWAIT` (1), no other value. -/
inductive AcqState where
  | idle
  | await
  deriving DecidableEq, Repr

/-- `Scaled(raw, e)`: the exact number `raw * 10^e` (00_scope.md R18). -/
structure Scaled where
  raw : Int
  exp : Int
  deriving DecidableEq, Repr

/-- The selector of a status description (30_encoding.md R103). The value 7 is never produced, so the
type leaves it out (93_implementation_defined.md I11). -/
inductive DescSel where
  | code
  | warmWater
  | cvBrandt
  | cvInRust
  | tapwaterNadraaien
  | cvNadraaien
  | status999
  deriving DecidableEq, Repr

/-- A decoded snapshot (42_status_decoder.md R180), under the spec's field names. -/
structure StatusSnapshot where
  t1 : Scaled
  flowTemp : Scaled
  t2 : Scaled
  t3 : Scaled
  t4 : Scaled
  t5 : Scaled
  pressure : Scaled
  setpointTemp : Scaled
  fanSpeedSetpoint : Scaled
  fanSpeed : Scaled
  fanPwm : Scaled
  ionisationCurrent : Scaled
  statusCode : BitVec 9
  faultCode : Byte
  statusByte1 : Byte
  statusByte2 : Byte
  hasPressureSensor : Bool
  openthermActive : Bool
  pumpRunning : Bool
  descSel : DescSel
  descText : Text
  rawHex : Text
  deriving DecidableEq, Repr

/-- The three error conditions (60_exceptions.md R240). -/
inductive ErrCode where
  | timeout
  | malformedCommand
  | hardwareUnavailable
  deriving DecidableEq, Repr

/-- The output events (10_state.md R48, 30_encoding.md R115), as records (log 12). -/
inductive OutEvent where
  | tx (b : Byte)
  | diag (c : Char)
  | snap (s : StatusSnapshot)
  | raw (t : Text)
  | err (code : ErrCode) (info : BitVec 32)
  deriving DecidableEq, Repr

/-- What a micro-operation run on its own returned to whoever started it (the `return` of the pseudocode
of 40_byte_decoder.md and 42_status_decoder.md). The model's own type (DESIGN CHOICE, log 5). -/
inductive Result where
  | none
  | scaled (v : Scaled)
  | flag (b : Bool)
  | digit (c : Char)
  | snapshot (s : StatusSnapshot)
  | status (statusCode : BitVec 9) (faultCode : Byte)
  | desc (sel : DescSel) (text : Text)
  | text (t : Text)
  deriving DecidableEq, Repr

/-- A buffer of 20_memory.md R70: the entries that hold a value, as (offset, byte) pairs at strictly
rising offsets below 32. An offset not listed holds no value (10_state.md R33, R36; log 7). -/
abbrev Memory := List Host.Cell

/-- The state of the block: the record of 10_state.md R30, the output trace of R48, and below them the
model's own fields. -/
structure State where
  /-- R31. -/
  acqState : AcqState
  /-- R32; legal values 0 to 32 (log 9). -/
  byteCount : Nat
  /-- R33. -/
  frameBuf : Memory
  /-- R34; the bits above `CLK_W` are zero (log 10). -/
  deadlineAnchor : Clock
  /-- R35. -/
  frameReady : Bool
  /-- R36. -/
  handBuf : Memory
  /-- R37. -/
  lastRequest : Clock
  /-- R40. -/
  scanPeriodMs : BitVec 32
  /-- R41. -/
  rawPublishEn : Bool
  /-- R42, oldest byte first. -/
  rxFifo : List Byte
  /-- R43, the mark of a run that held a refused word. -/
  refused : Bool
  /-- R48, oldest event first (log 11). -/
  trace : List OutEvent
  /-- The model's own: the parameters, written by nothing (log 1). -/
  cfg : Config
  /-- The model's own: the words the outside gives the block, next one first (log 3). -/
  port : List Code
  /-- The model's own: what the last micro-operation run on its own returned (log 5). -/
  result : Result
  /-- The model's own: how many resets there were, for the free value (log 7). -/
  epoch : Nat
  deriving DecidableEq, Repr

/-- Why the machine stops with a fault. No event word of a host leads to one from a state that meets
`HostInv` (Safety.lean). -/
inductive Fault where
  /-- Raised by `RX_ACCEPT` when `acq_state = AWAIT` and `byte_count <= 31` do not both hold: R156 gives
  it an effect under that precondition only, and R72 allows no write when `byte_count = 32`. Safe: the
  machine stops (log 8). -/
  | rxAcceptPrecondition
  /-- Raised by `FRAME_COMPLETE` when `byte_count = 32` does not hold: R157 gives it an effect under that
  precondition only, and R161 hands over no partial frame. Safe: the machine stops (log 8). -/
  | frameCompletePrecondition
  deriving DecidableEq, Repr

/-- Why the model gives a word no meaning. -/
inductive Refusal where
  /-- Raised by `exec` for an instruction that has no meaning yet. Safe: nothing is claimed of it. -/
  | notModelled (mnemonic : String)
  /-- Raised by `step` for a micro-operation word of the model that is no micro-operation. Safe: no host
  can send one (30_encoding.md R118; log 4). A refused EVENT word is no refusal of the model: it sets
  `refused` (R121; log 6). -/
  | notAMicroOperation (reason : DecodeError)
  deriving DecidableEq, Repr

/-- The launch state for the parameters `c` (70_reset_and_hazards.md R271): the state `RESET` leaves
(R270), `refused = 0`, and the model's own fields at rest (logs 3, 5, 7). -/
def State.launch (c : Config) : State :=
  { acqState := .idle
    byteCount := 0
    frameBuf := []
    deadlineAnchor := 0
    frameReady := false
    handBuf := []
    lastRequest := 0
    scanPeriodMs := BitVec.ofNat 32 c.scanPeriodResetMs
    rawPublishEn := false
    rxFifo := []
    refused := false
    trace := []
    cfg := c
    port := []
    result := .none
    epoch := 0 }

/-- The machine right after reset, for the parameters of the test vectors (log 2). -/
def State.reset : State := State.launch Config.vectors

end Sys2Proof.Machine
end

