-- ==== Sys2Proof/Machine/Ops.lean ====
section
/-! DEFINITION. The named operations over the buffers, the serial input buffer, the output trace and the
clock (00_scope.md R17, R19, R20, R21; 20_memory.md R71, R80). -/

namespace Sys2Proof.Machine

/-! ### The two byte buffers -/

/-- The canonical form of a buffer: strictly rising offsets, all of them below 32 (20_memory.md R70). -/
abbrev Memory.wf (m : Memory) : Prop :=
  m.Pairwise (fun x y => x.1 < y.1) ∧ ∀ cell ∈ m, cell.1 < 32

/-- The value an entry holds, or none where it holds no value (10_state.md R33). -/
def Memory.read : Memory → Nat → Option Byte
  | [], _ => none
  | (a, b) :: rest, i => if i = a then some b else Memory.read rest i

/-- Set one entry, in the canonical form. -/
def Memory.write : Memory → Nat → Byte → Memory
  | [], i, v => [(i, v)]
  | (a, b) :: rest, i, v =>
    if i < a then (i, v) :: (a, b) :: rest
    else if i = a then (a, v) :: rest
    else (a, b) :: Memory.write rest i v

/-- `FrameWrite(i, b)` (20_memory.md R71): set entry `i` of `frame_buf`. Its one caller is the append of
R156, at `i <= 31`. -/
def frameWrite (i : Nat) (b : Byte) (s : State) : State :=
  { s with frameBuf := s.frameBuf.write i b }

/-- `FrameRead(i)` (20_memory.md R71): entry `i` of `hand_buf`. An entry that holds no value reads as the
free value (log 7). The offset is one of 0..31, so no access falls outside (R78). -/
def frameRead (s : State) (i : Fin 32) : Byte :=
  (s.handBuf.read i.val).getD (Config.noValue s.epoch i.val)

/-! ### The serial line and the outputs -/

/-- `RxAvailable()` (00_scope.md R20). -/
def rxAvailable (s : State) : Bool := !s.rxFifo.isEmpty

/-- `RxPop()` (00_scope.md R20): the oldest byte, and the state without it; none when there is none. -/
def rxPop (s : State) : Option (Byte × State) :=
  match s.rxFifo with
  | [] => none
  | b :: rest => some (b, { s with rxFifo := rest })

/-- `RxFlush()` (00_scope.md R20). -/
def rxFlush (s : State) : State := { s with rxFifo := [] }

/-- The serial line's append (41_frame_assembler.md R151): at the tail, and lost when the buffer holds
`RX_FIFO_DEPTH` bytes. -/
def rxAppend (data : Byte) (s : State) : State :=
  if s.rxFifo.length < s.cfg.rxFifoDepth then { s with rxFifo := s.rxFifo ++ [data] } else s

/-- `Emit(ev)` (00_scope.md R20): append one output event to the trace (10_state.md R48). -/
def emit (ev : OutEvent) (s : State) : State := { s with trace := s.trace ++ [ev] }

/-- `TxPut(b)` (00_scope.md R20; it always accepts, 10_state.md R49). -/
def txPut (b : Byte) (s : State) : State := emit (.tx b) s

/-- `raise <Error>(info)` (00_scope.md R21, 60_exceptions.md R245, R248): taking an error is reporting it
on the output trace, and nothing else; there is no trap entry and no return from one (R249). The recovery
is part of the rule that raises it. -/
def raise (code : ErrCode) (info : BitVec 32) (s : State) : State := emit (.err code info) s

/-- The 2-bit code of an error (30_encoding.md R114). -/
def ErrCode.bits : ErrCode → BitVec 2
  | .timeout => 1
  | .malformedCommand => 2
  | .hardwareUnavailable => 3

/-- The 3-bit selector of a description (30_encoding.md R103). -/
def DescSel.bits : DescSel → BitVec 3
  | .code => 0
  | .warmWater => 1
  | .cvBrandt => 2
  | .cvInRust => 3
  | .tapwaterNadraaien => 4
  | .cvNadraaien => 5
  | .status999 => 6

/-! ### The clock and the parameters -/

/-- `TIMEOUT_MS` (00_scope.md R8). -/
def timeoutMs : Nat := 3000

/-- `FRAME_LEN` (00_scope.md R7). -/
def frameLen : Nat := 32

/-- `delta(now, then) = (now - then) mod MOD` (00_scope.md R17). -/
def delta (c : Config) (now anchor : Clock) : Nat :=
  (((now.toNat : Int) - (anchor.toNat : Int)) % (c.modulus : Int)).toNat

/-- `SCAN_S_MAX = min(2^31 - 1, floor((MOD - 1) / 1000))` (00_scope.md R12). -/
def scanSMax (c : Config) : Nat := min (2 ^ 31 - 1) ((c.modulus - 1) / 1000)

/-! ### What the model itself adds -/

/-- Keep what a micro-operation run on its own returned (log 5). -/
def setResult (r : Result) (s : State) : State := { s with result := r }

/-- The outcome of an operation that can fault. -/
def outcomeOf : Except Fault State → Host.Outcome State Fault Refusal
  | .ok s => .next s
  | .error f => .fault f

/-- A refused word. An event word sets the mark and changes nothing else (30_encoding.md R121, log 6); a
word that is no micro-operation is the model's own and is refused by name (log 4). -/
def rejectWord (code : Code) (e : DecodeError) (s : State) : Host.Outcome State Fault Refusal :=
  match code with
  | .event _ => .next { s with refused := true }
  | .micro _ => .refused (.notAMicroOperation e)

end Sys2Proof.Machine
end

