-- ==== Sys2Proof/Machine/Operands.lean ====
section
/-! DEFINITION. The operand forms: the fields of a frame (30_encoding.md R94 to R101, 20_memory.md R74,
R75) and the payload of a configuration event (30_encoding.md R113). -/

namespace Sys2Proof.Machine

/-- A frame as the Status Decoder sees it: the byte `B[i]` at each offset (42_status_decoder.md). A value
passed to pure functions, never a field of the state. -/
abbrev Frame := Fin 32 → Byte

/-- The operand `B[0..31]` of `DECODE_FRAME` and `HEX_ECHO`: `FrameRead(i)` at every offset. -/
def handFrame (s : State) : Frame := fun i => frameRead s i

/-- The offset of the low byte of pair `k`: `2k` (20_memory.md R74). -/
def lsbOffset (k : Fin 12) : Fin 32 := ⟨2 * k.val, by omega⟩

/-- The offset of the high byte of pair `k`: `2k+1` (20_memory.md R74). -/
def msbOffset (k : Fin 12) : Fin 32 := ⟨2 * k.val + 1, by omega⟩

/-- `seconds = sext_32(w[31:0])` (30_encoding.md R113). -/
def secondsOf (w : BitVec 32) : Int := w.toInt

/-- `value = zext_32(w[31:0])` (30_encoding.md R113). -/
def valueOf (w : BitVec 32) : Nat := w.toNat

/-- The operand `Scaled(raw, -2)` of `FXP_SCALE` and `PRESSURE_SELECT`, a fixed-point value with two
implied fraction digits (30_encoding.md R95). -/
def fixedPoint (raw : BitVec 16) : Scaled := ⟨raw.toInt, -2⟩

end Sys2Proof.Machine
end

