-- ==== Sys2Proof/Machine/Flags.lean ====
section
/-! DEFINITION. Every flag computation of the spec: `FLAG_TEST` (40_byte_decoder.md R135), the derived
booleans of a snapshot (42_status_decoder.md R186), the fault-present condition (R184), and the block's
one status flag `frame_ready` (10_state.md R35, R44). -/

namespace Sys2Proof.Machine

/-- `FLAG_TEST`: `(byte & mask) = mask` (40_byte_decoder.md R135). -/
def flagTest (byte mask : Byte) : Bool := decide (byte &&& mask = mask)

/-- `has_pressure_sensor` from status byte2 (42_status_decoder.md R186). -/
def hasPressureSensor (b28 : Byte) : Bool := flagTest b28 0x20

/-- `opentherm_active` from status byte1 (42_status_decoder.md R186). -/
def openthermActive (b26 : Byte) : Bool := flagTest b26 0x80

/-- `pump_running` from status byte1 (42_status_decoder.md R186). -/
def pumpRunning (b26 : Byte) : Bool := flagTest b26 0x08

/-- `FAULT_FLAG` (42_status_decoder.md R184): under `INTENDED`, bit 7 of byte 27 clear; under
`SOURCE_LITERAL`, never. -/
def faultFlag (polarity : FaultPolarity) (b27 : Byte) : Bool :=
  match polarity with
  | .intended => decide (b27 &&& 0x80 ≠ 0x80)
  | .sourceLiteral => false

/-- `frame_ready <- v` (41_frame_assembler.md R157, R159; 43_poll_scheduler.md R217). -/
def setFrameReady (v : Bool) (s : State) : State := { s with frameReady := v }

end Sys2Proof.Machine
end

