-- ==== Sys2Proof/Machine/ByteDecoder.lean ====
section
/-! DEFINITION. The Byte Decoder (40_byte_decoder.md): pure functions of their operands, and their
meanings as operations run on their own, which keep the returned value in `result` (log 5). -/

namespace Sys2Proof.Machine

/-- `FXP_DECODE` (40_byte_decoder.md R130), the source's formula in the integers. -/
def fxpDecode (msb lsb : Byte) : Scaled :=
  if 127 < msb.toNat then
    ⟨-((((msb ^^^ 0xFF).toNat : Int) + 1) * 256 - (lsb.toNat : Int)), -2⟩
  else
    ⟨(msb.toNat : Int) * 256 + (lsb.toNat : Int), -2⟩

/-- `FXP_SCALE` of a value `Scaled(raw, -2)` (40_byte_decoder.md R134). -/
def fxpScale (v : Scaled) : ScaleFactor → Scaled
  | .x100 => ⟨v.raw, 0⟩
  | .x10 => ⟨v.raw, -1⟩

/-- The lookup table of 16 characters (30_encoding.md R104). -/
def hexTable : Text :=
  ['0', '1', '2', '3', '4', '5', '6', '7', '8', '9', 'A', 'B', 'C', 'D', 'E', 'F']

/-- `HEX_DIGIT` (40_byte_decoder.md R137) of an 8-bit value (log 15): masked to the low four bits, so the
lookup never fails. -/
def hexDigit (n : Byte) : Char := hexTable.getD (n &&& 0x0F).toNat '0'

/-- `FXP_DECODE` as an operation. -/
def execFxpDecode (msb lsb : Byte) (s : State) : Host.Outcome State Fault Refusal :=
  .next (setResult (.scaled (fxpDecode msb lsb)) s)

/-- `FXP_SCALE` as an operation. -/
def execFxpScale (raw : BitVec 16) (factor : ScaleFactor) (s : State) :
    Host.Outcome State Fault Refusal :=
  .next (setResult (.scaled (fxpScale (fixedPoint raw) factor)) s)

/-- `FLAG_TEST` as an operation. -/
def execFlagTest (byte mask : Byte) (s : State) : Host.Outcome State Fault Refusal :=
  .next (setResult (.flag (flagTest byte mask)) s)

/-- `HEX_DIGIT` as an operation. -/
def execHexDigit (n : Byte) (s : State) : Host.Outcome State Fault Refusal :=
  .next (setResult (.digit (hexDigit n)) s)

end Sys2Proof.Machine
end

