-- ==== Sys2Proof/Machine/FrameAssembler.lean ====
section
/-! DEFINITION. The Frame Assembler (41_frame_assembler.md): `RX_ARRIVE` and the micro-operations
`REQ_ISSUE`, `RX_ACCEPT`, `FRAME_COMPLETE`, `DRAIN`, `TIMEOUT_CHECK`. -/

namespace Sys2Proof.Machine

/-- The three request bytes `'S'`, `'?'`, carriage return, in order (30_encoding.md R90, R91). -/
def sendRequest (s : State) : State := txPut 0x0D (txPut 0x3F (txPut 0x53 s))

/-- `REQ_ISSUE` (41_frame_assembler.md R152); rejected while `AWAIT` (R153). -/
def reqIssue (now : Clock) (s : State) : State :=
  match s.acqState with
  | .await => s
  | .idle =>
    { sendRequest (rxFlush s) with
      deadlineAnchor := now
      lastRequest := now
      byteCount := 0
      acqState := .await }

/-- `FRAME_COMPLETE` (41_frame_assembler.md R157): the whole-frame copy, `frame_ready` and `IDLE`. Outside
its precondition it faults (log 8). -/
def frameComplete (s : State) : Except Fault State :=
  if s.byteCount = frameLen then
    .ok (setFrameReady true { s with handBuf := s.frameBuf, acqState := .idle })
  else .error .frameCompletePrecondition

/-- The diagnostic echo of one accepted byte: two hex digits, high digit first (41_frame_assembler.md
R158). -/
def echoByte (b : Byte) (s : State) : State :=
  emit (.diag (hexDigit b)) (emit (.diag (hexDigit (b >>> 4))) s)

/-- The append of `RX_ACCEPT`: `FrameWrite` at the next free position, the count, the echo (R156). -/
def appendByte (b : Byte) (s : State) : State :=
  echoByte b { frameWrite s.byteCount b s with byteCount := s.byteCount + 1 }

/-- `RX_ACCEPT` (41_frame_assembler.md R156). Outside its precondition it faults (log 8). -/
def rxAccept (b : Byte) (s : State) : Except Fault State :=
  if s.acqState = .await ∧ s.byteCount ≤ 31 then
    if (appendByte b s).byteCount = frameLen then frameComplete (appendByte b s)
    else .ok (appendByte b s)
  else .error .rxAcceptPrecondition

/-- The loop of `DRAIN` (41_frame_assembler.md R154). The first argument bounds the turns: each turn
removes one byte of `rx_fifo`, so its length at the start is enough. -/
def drainLoop : Nat → State → Except Fault State
  | 0, s => .ok s
  | turns + 1, s =>
    match s.acqState, rxPop s with
    | .await, some (b, popped) =>
      match rxAccept b popped with
      | .ok t => drainLoop turns t
      | .error f => .error f
    | _, _ => .ok s

/-- `DRAIN` (41_frame_assembler.md R154, R155). -/
def drain (s : State) : Except Fault State := drainLoop s.rxFifo.length s

/-- The condition of a timeout: `AWAIT` and `TIMEOUT_MS` elapsed since the request (R159). -/
def timedOut (now : Clock) (s : State) : Bool :=
  decide (s.acqState = .await) && decide (timeoutMs ≤ delta s.cfg now s.deadlineAnchor)

/-- `TIMEOUT_CHECK` (41_frame_assembler.md R159): the partial frame is discarded and `Timeout` raised with
the number of bytes received (60_exceptions.md R241). -/
def timeoutCheck (now : Clock) (s : State) : State :=
  if timedOut now s then
    raise .timeout (BitVec.ofNat 32 s.byteCount)
      (setFrameReady false { s with byteCount := 0, acqState := .idle })
  else s

/-- `RX_ARRIVE` as an operation (41_frame_assembler.md R151). -/
def execRxArrive (data : Byte) (s : State) : Host.Outcome State Fault Refusal :=
  .next (rxAppend data s)

/-- `DRAIN` as an operation. -/
def execDrain (s : State) : Host.Outcome State Fault Refusal := outcomeOf (drain s)

/-- `RX_ACCEPT` as an operation. -/
def execRxAccept (b : Byte) (s : State) : Host.Outcome State Fault Refusal :=
  outcomeOf (rxAccept b s)

/-- `FRAME_COMPLETE` as an operation. -/
def execFrameComplete (s : State) : Host.Outcome State Fault Refusal := outcomeOf (frameComplete s)

/-- `TIMEOUT_CHECK` as an operation. -/
def execTimeoutCheck (now : Clock) (s : State) : Host.Outcome State Fault Refusal :=
  .next (timeoutCheck now s)

/-- `REQ_ISSUE` as an operation. -/
def execReqIssue (now : Clock) (s : State) : Host.Outcome State Fault Refusal :=
  .next (reqIssue now s)

end Sys2Proof.Machine
end

