-- ==== Sys2Proof/Machine/StatusDecoder.lean ====
section
/-! DEFINITION. The Status Decoder (42_status_decoder.md): pure, total functions of a frame and of
`FAULT_POLARITY`, and their meanings as operations run on their own (log 5). -/

namespace Sys2Proof.Machine

/-- `fx(k) = FXP_DECODE(B[2k+1], B[2k])` (42_status_decoder.md; 20_memory.md R75). -/
def fx (frame : Frame) (k : Fin 12) : Scaled :=
  fxpDecode (frame (msbOffset k)) (frame (lsbOffset k))

/-- `PRESSURE_SELECT` (42_status_decoder.md R183): the sentinel -35.00 without a pressure sensor. -/
def pressureSelect (p : Scaled) (hp : Bool) : Scaled := if hp then p else ⟨-3500, -2⟩

/-- `STATUS_EXTEND` (42_status_decoder.md R185): the 9-bit status code and the fault code. -/
def statusExtend (r f : Byte) (fault : Bool) : BitVec 9 × Byte :=
  if fault then (256#9 + f.setWidth 9, f) else (r.setWidth 9, 0)

/-- The decimal digits of a number, without leading zeros; the first argument bounds their count. -/
def decimalDigits : Nat → Nat → Text
  | 0, _ => []
  | fuel + 1, n =>
    (if n < 10 then [] else decimalDigits fuel (n / 10)) ++ [hexTable.getD (n % 10) '0']

/-- A number in decimal, no leading zeros (30_encoding.md R103, 42_status_decoder.md R195). -/
def decimal (n : Nat) : Text := decimalDigits (n + 1) n

/-- `DESC_LOOKUP` (42_status_decoder.md R188, 30_encoding.md R103). The entry 999 stands in the table and
no 9-bit code reaches it (R189). -/
def descLookup (c : BitVec 9) : DescSel × Text :=
  if c.toNat = 51 then (.warmWater, ['W', 'a', 'r', 'm', ' ', 'w', 'a', 't', 'e', 'r'])
  else if c.toNat = 102 then (.cvBrandt, ['C', 'V', ' ', 'b', 'r', 'a', 'n', 'd', 't'])
  else if c.toNat = 126 then (.cvInRust, ['C', 'V', ' ', 'i', 'n', ' ', 'r', 'u', 's', 't'])
  else if c.toNat = 204 then
    (.tapwaterNadraaien,
      ['T', 'a', 'p', 'w', 'a', 't', 'e', 'r', ' ', 'n', 'a', 'd', 'r', 'a', 'a', 'i', 'e', 'n'])
  else if c.toNat = 231 then
    (.cvNadraaien, ['C', 'V', ' ', 'N', 'a', 'd', 'r', 'a', 'a', 'i', 'e', 'n'])
  else if c.toNat = 999 then (.status999, ['S', 't', 'a', 't', 'u', 's', ' ', '9', '9', '9'])
  else (.code, ['C', 'o', 'd', 'e', ' '] ++ decimal c.toNat)

/-- `HEX_ECHO` (42_status_decoder.md R190, 30_encoding.md R105): two digits and a space per byte. -/
def hexEcho (frame : Frame) : Text :=
  (List.finRange 32).flatMap fun i => [hexDigit (frame i >>> 4), hexDigit (frame i), ' ']

/-- `DECODE_FRAME` (42_status_decoder.md R181, R182, R186, R187). -/
def decodeFrame (polarity : FaultPolarity) (frame : Frame) : StatusSnapshot :=
  let fault := faultFlag polarity (frame 27)
  let hp := hasPressureSensor (frame 28)
  let status := statusExtend (frame 24) (frame 29) fault
  let desc := descLookup status.1
  { t1 := fx frame 0
    flowTemp := fx frame 1
    t2 := fx frame 2
    t3 := fx frame 3
    t4 := fx frame 4
    t5 := fx frame 5
    pressure := pressureSelect (fx frame 6) hp
    setpointTemp := fx frame 7
    fanSpeedSetpoint := fxpScale (fx frame 8) .x100
    fanSpeed := fxpScale (fx frame 9) .x100
    fanPwm := fxpScale (fx frame 10) .x10
    ionisationCurrent := fx frame 11
    statusCode := status.1
    faultCode := status.2
    statusByte1 := frame 26
    statusByte2 := frame 28
    hasPressureSensor := hp
    openthermActive := openthermActive (frame 26)
    pumpRunning := pumpRunning (frame 26)
    descSel := desc.1
    descText := desc.2
    rawHex := hexEcho frame }

/-- The snapshot of the frame in `hand_buf`. -/
def snapshotOf (s : State) : StatusSnapshot := decodeFrame s.cfg.faultPolarity (handFrame s)

/-- `DECODE_FRAME` as an operation. -/
def execDecodeFrame (s : State) : Host.Outcome State Fault Refusal :=
  .next (setResult (.snapshot (snapshotOf s)) s)

/-- `PRESSURE_SELECT` as an operation. -/
def execPressureSelect (p : BitVec 16) (hp : Bool) (s : State) :
    Host.Outcome State Fault Refusal :=
  .next (setResult (.scaled (pressureSelect (fixedPoint p) hp)) s)

/-- `FAULT_FLAG` as an operation. -/
def execFaultFlag (b27 : Byte) (s : State) : Host.Outcome State Fault Refusal :=
  .next (setResult (.flag (faultFlag s.cfg.faultPolarity b27)) s)

/-- `STATUS_EXTEND` as an operation. -/
def execStatusExtend (r f : Byte) (fault : Bool) (s : State) :
    Host.Outcome State Fault Refusal :=
  .next (setResult (.status (statusExtend r f fault).1 (statusExtend r f fault).2) s)

/-- `DESC_LOOKUP` as an operation. -/
def execDescLookup (c : BitVec 9) (s : State) : Host.Outcome State Fault Refusal :=
  .next (setResult (.desc (descLookup c).1 (descLookup c).2) s)

/-- `HEX_ECHO` as an operation. -/
def execHexEcho (s : State) : Host.Outcome State Fault Refusal :=
  .next (setResult (.text (hexEcho (handFrame s))) s)

end Sys2Proof.Machine
end

