-- ==== Sys2Proof/Machine/PollScheduler.lean ====
section
/-! DEFINITION. The Poll Scheduler, the control-loop iteration and the reconfiguration events
(43_poll_scheduler.md), and `RESET` (70_reset_and_hazards.md R270). -/

namespace Sys2Proof.Machine

/-- A request is due: `IDLE`, and the scan period elapsed since the last request (43_poll_scheduler.md
R213). -/
def requestDue (now : Clock) (s : State) : Bool :=
  decide (s.acqState = .idle) && decide (s.scanPeriodMs.toNat ≤ delta s.cfg now s.lastRequest)

/-- `SCHED_CHECK` (43_poll_scheduler.md R213, R214). -/
def schedCheck (now : Clock) (s : State) : State :=
  if requestDue now s then reqIssue now s else s

/-- The outputs of a completed frame: the snapshot, and its raw rendering where enabled
(43_poll_scheduler.md R217, 42_status_decoder.md R197). -/
def publishFrame (s : State) : State :=
  if s.rawPublishEn then emit (.raw (snapshotOf s).rawHex) (emit (.snap (snapshotOf s)) s)
  else emit (.snap (snapshotOf s)) s

/-- `DECODE_PUBLISH` (43_poll_scheduler.md R217). -/
def decodePublish (s : State) : State :=
  if s.frameReady then setFrameReady false (publishFrame s) else s

/-- One iteration of the control loop (43_poll_scheduler.md R210, R211); with the transport not ready no
stage runs (R212). -/
def iterate (ready : Bool) (now : Clock) (s : State) : Except Fault State :=
  if ready then
    match drain s with
    | .ok drained => .ok (decodePublish (schedCheck now (timeoutCheck now drained)))
    | .error f => .error f
  else .ok (raise .hardwareUnavailable 0 s)

/-- Set the scan period (43_poll_scheduler.md R224); a value out of range is reported with its payload and
changes nothing (60_exceptions.md R242). -/
def setScanPeriod (w : BitVec 32) (s : State) : State :=
  if 2 ≤ secondsOf w ∧ secondsOf w ≤ (scanSMax s.cfg : Int) then
    { s with scanPeriodMs := BitVec.ofInt 32 (secondsOf w * 1000) }
  else raise .malformedCommand w s

/-- Set raw-data publishing (43_poll_scheduler.md R226). -/
def setRawPublish (w : BitVec 32) (s : State) : State :=
  if valueOf w = 0 then { s with rawPublishEn := false }
  else if valueOf w = 1 then { s with rawPublishEn := true }
  else raise .malformedCommand w s

/-- `RESET` (70_reset_and_hazards.md R270): every field of the block at its reset value, `refused` and the
outputs as they are. The buffers hold no value afterwards, of which the free value of a new epoch stands
for what they read as (log 7). -/
def resetBlock (s : State) : State :=
  { s with
    acqState := .idle
    byteCount := 0
    frameBuf := []
    deadlineAnchor := 0
    frameReady := false
    handBuf := []
    lastRequest := 0
    scanPeriodMs := BitVec.ofNat 32 s.cfg.scanPeriodResetMs
    rawPublishEn := false
    rxFifo := []
    epoch := s.epoch + 1 }

/-- `ITER` as an operation. -/
def execIter (ready : Bool) (now : Clock) (s : State) : Host.Outcome State Fault Refusal :=
  outcomeOf (iterate ready now s)

/-- `SCHED_CHECK` as an operation. -/
def execSchedCheck (now : Clock) (s : State) : Host.Outcome State Fault Refusal :=
  .next (schedCheck now s)

/-- `DECODE_PUBLISH` as an operation. -/
def execDecodePublish (s : State) : Host.Outcome State Fault Refusal := .next (decodePublish s)

/-- `CFG_SCAN_PERIOD` as an operation. -/
def execCfgScanPeriod (seconds : BitVec 32) (s : State) : Host.Outcome State Fault Refusal :=
  .next (setScanPeriod seconds s)

/-- `CFG_RAW_PUBLISH` as an operation. -/
def execCfgRawPublish (value : BitVec 32) (s : State) : Host.Outcome State Fault Refusal :=
  .next (setRawPublish value s)

/-- `RESET` as an operation. -/
def execReset (s : State) : Host.Outcome State Fault Refusal := .next (resetBlock s)

end Sys2Proof.Machine
end

