-- ==== Sys2Proof/Machine/Dispatch.lean ====
section
/-! DEFINITION. The dispatch: one arm per row of spec/opcode_table.json. -/

namespace Sys2Proof.Machine

def exec (i : Instr) (s : State) : Host.Outcome State Fault Refusal :=
  match i with
  | .iter ready now => Sys2Proof.Machine.execIter ready now s
  | .rxArrive data => Sys2Proof.Machine.execRxArrive data s
  | .cfgScanPeriod seconds => Sys2Proof.Machine.execCfgScanPeriod seconds s
  | .cfgRawPublish value => Sys2Proof.Machine.execCfgRawPublish value s
  | .reset => Sys2Proof.Machine.execReset s
  | .drain => Sys2Proof.Machine.execDrain s
  | .rxAccept b => Sys2Proof.Machine.execRxAccept b s
  | .frameComplete => Sys2Proof.Machine.execFrameComplete s
  | .timeoutCheck now => Sys2Proof.Machine.execTimeoutCheck now s
  | .reqIssue now => Sys2Proof.Machine.execReqIssue now s
  | .schedCheck now => Sys2Proof.Machine.execSchedCheck now s
  | .decodePublish => Sys2Proof.Machine.execDecodePublish s
  | .fxpDecode msb lsb => Sys2Proof.Machine.execFxpDecode msb lsb s
  | .fxpScale raw factor => Sys2Proof.Machine.execFxpScale raw factor s
  | .flagTest byte mask => Sys2Proof.Machine.execFlagTest byte mask s
  | .hexDigit n => Sys2Proof.Machine.execHexDigit n s
  | .decodeFrame => Sys2Proof.Machine.execDecodeFrame s
  | .pressureSelect p hp => Sys2Proof.Machine.execPressureSelect p hp s
  | .faultFlag b27 => Sys2Proof.Machine.execFaultFlag b27 s
  | .statusExtend r f fault => Sys2Proof.Machine.execStatusExtend r f fault s
  | .descLookup c => Sys2Proof.Machine.execDescLookup c s
  | .hexEcho => Sys2Proof.Machine.execHexEcho s

end Sys2Proof.Machine
end

