-- ==== Sys2Proof/Machine/Step.lean ====
section
/-! DEFINITION. One step: the next word the outside gives the block, decoded and performed atomically
(10_state.md R46, 20_memory.md R81). -/

namespace Sys2Proof.Machine

/-- One step. With no word at the port the block holds its state (60_exceptions.md R257,
70_reset_and_hazards.md R272; log 3). -/
def step (s : State) : Host.Outcome State Fault Refusal :=
  match s.port with
  | [] => .next s
  | code :: rest =>
    match decode s.cfg code with
    | .ok i => exec i { s with port := rest }
    | .error e => rejectWord code e { s with port := rest }

/-- `s` with the word of an opcode-table row as the next word at the port (log 3). -/
def State.withFetchWord (s : State) (nbits w : Nat) : State :=
  { s with port := codeOfTable nbits w :: s.port }

end Sys2Proof.Machine
end

