-- ==== Sys2Proof/Machine/Publisher.lean ====
section
/-! DEFINITION. The publisher's boundary (42_status_decoder.md R194 to R198): the strings the spec fixes
for a snapshot's values, as pure functions beside the machine. They are no operation of the block and no
step runs them (log 13). -/

namespace Sys2Proof.Machine

/-- The string of a temperature `Scaled(raw, -2)` (42_status_decoder.md R195): a sign where `raw < 0`, the
whole degrees, a point, exactly two digits. -/
def temperatureText (v : Scaled) : Text :=
  (if v.raw < 0 then ['-'] else []) ++ decimal (v.raw.natAbs / 100) ++
    ['.', hexTable.getD (v.raw.natAbs % 100 / 10) '0', hexTable.getD (v.raw.natAbs % 10) '0']

/-- The string of a code: a decimal integer (42_status_decoder.md R196). -/
def codeText (n : Nat) : Text := decimal n

/-- The string of a boolean (42_status_decoder.md R196). -/
def boolText (b : Bool) : Text :=
  if b then ['t', 'r', 'u', 'e'] else ['f', 'a', 'l', 's', 'e']

end Sys2Proof.Machine
end

