-- ==== Sys2Proof/Machine/Script.lean ====
section
/-! DEFINITION. Event scripts (30_encoding.md R119, R120): the lines and the pseudo-lines, as abstract
syntax, and the event words each assembles to (log 14). -/

namespace Sys2Proof.Machine

/-- One line of an event script. `ready` is 1 where an `ITER` line does not give it (R119). -/
inductive ScriptLine where
  | iter (now : Clock) (ready : Bool)
  | rx (b : Byte)
  | cfgScan (seconds : BitVec 32)
  | cfgRaw (value : BitVec 32)
  | reset
  /-- `RXS b0 b1 ... bn` (R120). -/
  | rxs (bytes : List Byte)
  /-- `RXFRAME <64 hex digits>`: 32 bytes, the first two digits first (R120). -/
  | rxFrame (bytes : Vector Byte 32)
  /-- `IDLE_ITER now=<n>` (R120). -/
  | idleIter (now : Clock)
  /-- `DOWN now=<n>` (R120). -/
  | down (now : Clock)
  deriving DecidableEq, Repr

/-- The events a line stands for, pseudo-lines expanded (30_encoding.md R119, R120). -/
def expandLine : ScriptLine → List Instr
  | .iter now ready => [.iter ready now]
  | .rx b => [.rxArrive b]
  | .cfgScan seconds => [.cfgScanPeriod seconds]
  | .cfgRaw value => [.cfgRawPublish value]
  | .reset => [.reset]
  | .rxs bytes => bytes.map .rxArrive
  | .rxFrame bytes => bytes.toList.map .rxArrive
  | .idleIter now => [.iter true now]
  | .down now => [.iter false now]

/-- The words a script assembles to, in order (30_encoding.md R119). -/
def assemble (lines : List ScriptLine) : List Code := (lines.flatMap expandLine).map encode

end Sys2Proof.Machine
end

