-- ==== Sys2Proof/Safety.lean ====
section
/-! DEFINITION. What the states of a run are like: the invariants of 10_state.md between events, in the
terms claims use. -/

namespace Sys2Proof.Machine

/-- The first `n` entries of a buffer hold a value (10_state.md R33). -/
def Memory.filled (m : Memory) (n : Nat) : Prop := ∀ i, i < n → (m.read i).isSome = true

/-- The values `scan_period_ms` can hold (10_state.md R40). -/
def legalPeriod (c : Config) (v : BitVec 32) : Prop :=
  v.toNat = c.scanPeriodResetMs ∨ ∃ k, 2 ≤ k ∧ k ≤ scanSMax c ∧ v.toNat = 1000 * k

/-- What holds before and after every operation, micro-operations run on their own among them. -/
structure CoreInv (s : State) : Prop where
  /-- 00_scope.md R10, R11, R13. -/
  cfg_wf : s.cfg.Wf
  /-- The canonical form of `frame_buf` (log 7). -/
  frame_wf : Memory.wf s.frameBuf
  /-- The canonical form of `hand_buf` (log 7). -/
  hand_wf : Memory.wf s.handBuf
  /-- 10_state.md R32. -/
  await_count : s.acqState = .await → s.byteCount ≤ 31
  /-- 10_state.md R32. -/
  idle_count : s.acqState = .idle → s.byteCount = 0 ∨ s.byteCount = 32
  /-- 10_state.md R33. -/
  frame_filled : s.frameBuf.filled s.byteCount
  /-- 10_state.md R36: written as a whole or not at all since the reset. -/
  hand_whole : s.handBuf = [] ∨ s.handBuf.filled 32
  /-- 41_frame_assembler.md R157, R161. -/
  ready_hand : s.frameReady = true → s.handBuf.filled 32
  /-- 10_state.md R38. -/
  anchors_eq : s.lastRequest = s.deadlineAnchor
  /-- 10_state.md R34. -/
  anchor_lt : s.deadlineAnchor.toNat < s.cfg.modulus
  /-- 10_state.md R40. -/
  period_legal : legalPeriod s.cfg s.scanPeriodMs
  /-- 10_state.md R42. -/
  fifo_le : s.rxFifo.length ≤ s.cfg.rxFifoDepth

/-- What holds between the events of a host: the above, `frame_ready = 0` (10_state.md R35,
43_poll_scheduler.md R218), and only event words at the port (30_encoding.md R118). It asks nothing of the
order of events or of clock samples (log 16). -/
structure HostInv (s : State) : Prop where
  core : CoreInv s
  not_ready : s.frameReady = false
  host_words : ∀ code ∈ s.port, code.isEvent = true

/-- Bytes a step sent on the serial line (10_state.md R48). -/
def txBytes : List OutEvent → List Byte
  | [] => []
  | .tx b :: rest => b :: txBytes rest
  | .diag _ :: rest => txBytes rest
  | .snap _ :: rest => txBytes rest
  | .raw _ :: rest => txBytes rest
  | .err _ _ :: rest => txBytes rest

/-- The snapshots among output events. -/
def snapshots : List OutEvent → List StatusSnapshot
  | [] => []
  | .snap x :: rest => x :: snapshots rest
  | .tx _ :: rest => snapshots rest
  | .diag _ :: rest => snapshots rest
  | .raw _ :: rest => snapshots rest
  | .err _ _ :: rest => snapshots rest

/-- The echo of a run of accepted bytes (41_frame_assembler.md R158). -/
def echoEvents (bytes : List Byte) : List OutEvent :=
  bytes.flatMap fun b : Byte => [.diag (hexDigit (b >>> 4)), .diag (hexDigit b)]

/-- How many bytes `DRAIN` accepts (41_frame_assembler.md R154, R155). -/
def drainCount (s : State) : Nat :=
  match s.acqState with
  | .idle => 0
  | .await => min s.rxFifo.length (32 - s.byteCount)

/-- The frame an iteration would complete: the bytes accepted so far, then the buffered ones
(20_memory.md R73). -/
def assembledFrame (s : State) : Frame := fun i =>
  (if i.val < s.byteCount then s.frameBuf.read i.val else s.rxFifo[i.val - s.byteCount]?).getD
    (Config.noValue s.epoch i.val)

/-- The three request bytes on the output trace (30_encoding.md R90, R91). -/
def requestEvents : List OutEvent := [.tx 0x53, .tx 0x3F, .tx 0x0D]

/-- How many diagnostic characters are among output events. -/
def diagCount : List OutEvent → Nat
  | [] => 0
  | .diag _ :: rest => diagCount rest + 1
  | .tx _ :: rest => diagCount rest
  | .snap _ :: rest => diagCount rest
  | .raw _ :: rest => diagCount rest
  | .err _ _ :: rest => diagCount rest

/-- The sixteen hex characters in order, as the spec writes them (30_encoding.md R104). -/
def digitChar (n : Nat) : Char :=
  match n with
  | 0 => '0' | 1 => '1' | 2 => '2' | 3 => '3' | 4 => '4' | 5 => '5' | 6 => '6' | 7 => '7'
  | 8 => '8' | 9 => '9' | 10 => 'A' | 11 => 'B' | 12 => 'C' | 13 => 'D' | 14 => 'E' | _ => 'F'

/-- A number below 1000 in decimal without leading zeros, digit by digit (30_encoding.md R103). -/
def decimal3 (n : Nat) : Text :=
  if n < 10 then [digitChar n]
  else if n < 100 then [digitChar (n / 10), digitChar (n % 10)]
  else [digitChar (n / 100), digitChar (n / 10 % 10), digitChar (n % 10)]

end Sys2Proof.Machine
end

