-- ==== Sys2Proof/Certificates/Slice0/Obligations.lean ====
section
/-! DEFINITION. The statements for the provers, each a `def Obligations.<Name> : Prop`. -/

open Sys2Proof Sys2Proof.Machine

/-! ### Encodings -/

/-- Decoding the encoding of a well-formed instruction gives it back, for all 22 rows and every operand
value (30_encoding.md R106 to R113, R118; the operand fields of micro-operations are the model's, log 4). -/
def Obligations.EncodedInstructionDecodesToItself : Prop :=
  ∀ (c : Config) (i : Instr), i.wf c = true → decode c (encode i) = .ok i

/-- A word that decodes is the encoding of what it decodes to: no instruction has two words (30_encoding.md
R116, R121; micro-operation words are the model's, log 4). -/
def Obligations.DecodedWordIsTheEncoding : Prop :=
  ∀ (c : Config) (code : Code) (i : Instr), decode c code = .ok i → encode i = code

/-- The event words that are refused, exactly (30_encoding.md R117). -/
def Obligations.RefusedEventWordsExactly : Prop :=
  ∀ (c : Config) (w : EventWord),
    (∃ e, decode c (.event w) = .error e) ↔
      (w.toNat / 2 ^ 60 = 0 ∨ (5 ≤ w.toNat / 2 ^ 60 ∧ w.toNat / 2 ^ 60 ≤ 14)) ∨
      (w.toNat / 2 ^ 60 = 1 ∧
        (w.toNat / 2 ^ 33 % 2 ^ 27 ≠ 0 ∨ 2 ^ c.clkW ≤ w.toNat % 2 ^ 32)) ∨
      (w.toNat / 2 ^ 60 = 2 ∧ w.toNat / 2 ^ 8 % 2 ^ 52 ≠ 0) ∨
      ((w.toNat / 2 ^ 60 = 3 ∨ w.toNat / 2 ^ 60 = 4) ∧ w.toNat / 2 ^ 32 % 2 ^ 28 ≠ 0) ∨
      (w.toNat / 2 ^ 60 = 15 ∧ w.toNat % 2 ^ 60 ≠ 0)

/-- The event words of 95_test_vectors.md section 2.1, decoded and refused as its table says. -/
def Obligations.VectorEventWordsDecode : Prop :=
  decodeTableWord 64 0x1000000100001388 = some (.iter true 5000) ∧
  decodeTableWord 64 0x1000000000001388 = some (.iter false 5000) ∧
  decodeTableWord 64 0x10000001FFFFFC18 = some (.iter true 4294966296) ∧
  decodeTableWord 64 0x200000000000009C = some (.rxArrive 0x9C) ∧
  decodeTableWord 64 0x3000000000000002 = some (.cfgScanPeriod 2) ∧
  decodeTableWord 64 0x30000000FFFFFFFB = some (.cfgScanPeriod (-5)) ∧
  decodeTableWord 64 0x4000000000000001 = some (.cfgRawPublish 1) ∧
  decodeTableWord 64 0xF000000000000000 = some .reset ∧
  decodeTableWord 64 0x5000000000000000 = none ∧
  decodeTableWord 64 0x0000000000000000 = none ∧
  decodeTableWord 64 0x1000000200000000 = none ∧
  decodeTableWord 64 0x2000000000000100 = none ∧
  decodeTableWord 64 0xF000000000000001 = none

/-- The codes of the micro-operations, with every operand zero (30_encoding.md R118; the word that carries a
code, and its operand fields, are the model's, log 4). A code between the assigned ones starts nothing. -/
def Obligations.MicroCodesDecode : Prop :=
  decodeTableWord 8 0x01 = some .drain ∧ decodeTableWord 8 0x02 = some (.rxAccept 0) ∧
  decodeTableWord 8 0x03 = some .frameComplete ∧ decodeTableWord 8 0x04 = some (.timeoutCheck 0) ∧
  decodeTableWord 8 0x05 = some (.reqIssue 0) ∧ decodeTableWord 8 0x06 = some (.schedCheck 0) ∧
  decodeTableWord 8 0x07 = some .decodePublish ∧ decodeTableWord 8 0x10 = some (.fxpDecode 0 0) ∧
  decodeTableWord 8 0x11 = some (.fxpScale 0 .x100) ∧
  decodeTableWord 8 0x12 = some (.flagTest 0 0) ∧ decodeTableWord 8 0x13 = some (.hexDigit 0) ∧
  decodeTableWord 8 0x20 = some .decodeFrame ∧
  decodeTableWord 8 0x21 = some (.pressureSelect 0 false) ∧
  decodeTableWord 8 0x22 = some (.faultFlag 0) ∧
  decodeTableWord 8 0x23 = some (.statusExtend 0 0 false) ∧
  decodeTableWord 8 0x24 = some (.descLookup 0) ∧ decodeTableWord 8 0x25 = some .hexEcho ∧
  decodeTableWord 8 0x00 = none ∧ decodeTableWord 8 0x08 = none ∧ decodeTableWord 8 0x14 = none ∧
  decodeTableWord 8 0x26 = none

/-! ### Steps -/

/-- A step at a word that decodes is the decoded instruction, performed with that word taken from the port;
nothing else is added (10_state.md R46; the port is the model's, log 3). -/
def Obligations.StepRunsTheDecodedWord : Prop :=
  ∀ (s : State) (code : Code) (rest : List Code) (i : Instr),
    s.port = code :: rest → decode s.cfg code = .ok i → step s = exec i { s with port := rest }

/-- Every event word is one of the five host events, which the step performs, or it is refused: then the
step sets the refused mark and changes nothing else (30_encoding.md R121; the port is the model's, log 3,
and so is that the machine goes on, log 6). -/
def Obligations.EventWordIsPerformedOrMarked : Prop :=
  ∀ (s : State) (w : EventWord) (rest : List Code), s.port = .event w :: rest →
    (∃ i, decode s.cfg (.event w) = .ok i ∧ i.isEvent = true ∧
      step s = exec i { s with port := rest }) ∨
    (∃ e, decode s.cfg (.event w) = .error e ∧
      step s = .next { s with port := rest, refused := true })

/-- With no word at the port the block holds its state (60_exceptions.md R257; log 3). -/
def Obligations.EmptyPortHoldsTheState : Prop :=
  ∀ s : State, s.port = [] → step s = .next s

/-- The refused mark is set by refused event words alone, and nothing clears it; it is clear at the start of
a run (10_state.md R43; the port is the model's, log 3, the machine goes on, log 6). -/
def Obligations.RefusedMarkIsNeverCleared : Prop :=
  (∀ c : Config, (State.launch c).refused = false) ∧
  ∀ s t : State, step s = .next t →
    (s.refused = true → t.refused = true) ∧
    (t.refused = true → s.refused = true ∨
      ∃ w rest e, s.port = .event w :: rest ∧ decode s.cfg (.event w) = .error e) ∧
    (∀ w rest e, s.port = .event w :: rest → decode s.cfg (.event w) = .error e →
      t.refused = true)

/-- No step changes the parameters (10_state.md R30; carrying them in the state is the model's, log 1). -/
def Obligations.StepKeepsTheParameters : Prop :=
  ∀ s t : State, step s = .next t → t.cfg = s.cfg

/-! ### Reset -/

/-- `RESET` (70_reset_and_hazards.md R270). An entry that holds no value is one that reads as none (log 7);
`cfg`, `port` and `result` are the model's own fields (logs 1, 3, 5), the kept trace is log 11. -/
def Obligations.ResetEventSetsEveryField : Prop :=
  ∀ s : State, ∃ t, exec .reset s = .next t ∧
    t.acqState = .idle ∧ t.byteCount = 0 ∧ (∀ i, t.frameBuf.read i = none) ∧
    t.deadlineAnchor = 0 ∧ t.frameReady = false ∧ (∀ i, t.handBuf.read i = none) ∧
    t.lastRequest = 0 ∧ t.scanPeriodMs = BitVec.ofNat 32 s.cfg.scanPeriodResetMs ∧
    t.rawPublishEn = false ∧ t.rxFifo = [] ∧
    t.refused = s.refused ∧ t.trace = s.trace ∧
    t.cfg = s.cfg ∧ t.port = s.port ∧ t.result = s.result

/-- The launch state is the state `RESET` leaves, with `refused = 0` (70_reset_and_hazards.md R271). -/
def Obligations.LaunchStateIsWhatResetLeaves : Prop :=
  ∀ (c : Config) (s : State), s.cfg = c → ∃ t, exec .reset s = .next t ∧
    (State.launch c).acqState = t.acqState ∧ (State.launch c).byteCount = t.byteCount ∧
    (State.launch c).frameBuf = t.frameBuf ∧
    (State.launch c).deadlineAnchor = t.deadlineAnchor ∧
    (State.launch c).frameReady = t.frameReady ∧ (State.launch c).handBuf = t.handBuf ∧
    (State.launch c).lastRequest = t.lastRequest ∧
    (State.launch c).scanPeriodMs = t.scanPeriodMs ∧
    (State.launch c).rawPublishEn = t.rawPublishEn ∧ (State.launch c).rxFifo = t.rxFifo ∧
    (State.launch c).refused = false

/-- The launch state meets the invariants, for all legal parameters and for the model's own (log 2). -/
def Obligations.LaunchStateMeetsTheInvariant : Prop :=
  (∀ c : Config, c.Wf → HostInv (State.launch c)) ∧ HostInv State.reset

/-! ### Invariants -/

/-- Every step, micro-operations run on their own included, keeps the state's invariant (10_state.md R32,
R33, R34, R36, R38, R40, R42). -/
def Obligations.EveryStepKeepsTheCoreInvariant : Prop :=
  ∀ s t : State, CoreInv s → step s = .next t → CoreInv t

/-- Every step on the words of a host keeps what holds between events, `frame_ready = 0` among it
(10_state.md R35, 43_poll_scheduler.md R218). -/
def Obligations.EveryHostStepKeepsTheInvariant : Prop :=
  ∀ s t : State, HostInv s → step s = .next t → HostInv t

/-- No condition is fatal: a step on the words of a host always answers a next state (60_exceptions.md R240,
R248). -/
def Obligations.HostStepNeverStops : Prop :=
  ∀ s : State, HostInv s → ∃ t, step s = .next t

/-! ### The Byte Decoder -/

/-- `FXP_DECODE` is the two's-complement value of `msb ++ lsb` in hundredths (40_byte_decoder.md R131, an
inference of the spec); as an operation it changes nothing but the returned value (log 5). -/
def Obligations.FxpDecodeIsTwosComplement : Prop :=
  ∀ (msb lsb : Byte) (s : State),
    exec (.fxpDecode msb lsb) s =
      .next { s with result := .scaled ⟨(msb ++ lsb : BitVec 16).toInt, -2⟩ }

/-- `FXP_DECODE` by the source's formula, with no negative zero and with the corner values of
40_byte_decoder.md R130; as an operation it changes nothing but the returned value (log 5). -/
def Obligations.FxpDecodeFollowsTheSourceFormula : Prop :=
  (∀ (msb lsb : Byte) (s : State), ∃ raw : Int,
    exec (.fxpDecode msb lsb) s = .next { s with result := .scaled ⟨raw, -2⟩ } ∧
    (127 < msb.toNat →
      raw = -((((msb ^^^ 0xFF).toNat : Int) + 1) * 256 - (lsb.toNat : Int)) ∧ raw < 0) ∧
    (msb.toNat ≤ 127 → raw = (msb.toNat : Int) * 256 + (lsb.toNat : Int))) ∧
  fxpDecode 0x00 0x00 = ⟨0, -2⟩ ∧ fxpDecode 0x7F 0xFF = ⟨32767, -2⟩ ∧
  fxpDecode 0x80 0x00 = ⟨-32768, -2⟩ ∧ fxpDecode 0xFF 0xFF = ⟨-1, -2⟩ ∧
  fxpDecode 0xFF 0x9C = ⟨-100, -2⟩

/-- The ranges of the Byte Decoder's results (40_byte_decoder.md R138, an inference of the spec). -/
def Obligations.MeasurementRanges : Prop :=
  ∀ msb lsb : Byte,
    (-32768 ≤ (fxpDecode msb lsb).raw ∧ (fxpDecode msb lsb).raw ≤ 32767 ∧
      (fxpDecode msb lsb).exp = -2) ∧
    (-32768 ≤ (fxpScale (fxpDecode msb lsb) .x100).raw ∧
      (fxpScale (fxpDecode msb lsb) .x100).raw ≤ 32767 ∧
      (fxpScale (fxpDecode msb lsb) .x100).exp = 0) ∧
    (-32768 ≤ (fxpScale (fxpDecode msb lsb) .x10).raw ∧
      (fxpScale (fxpDecode msb lsb) .x10).raw ≤ 32767 ∧
      (fxpScale (fxpDecode msb lsb) .x10).exp = -1)

/-- `FXP_SCALE` (40_byte_decoder.md R134); as an operation it changes nothing but the returned value (log
5). -/
def Obligations.FxpScaleIsExact : Prop :=
  ∀ (raw : BitVec 16) (s : State),
    exec (.fxpScale raw .x100) s = .next { s with result := .scaled ⟨raw.toInt, 0⟩ } ∧
    exec (.fxpScale raw .x10) s = .next { s with result := .scaled ⟨raw.toInt, -1⟩ }

/-- `FLAG_TEST` is true exactly when every bit of the mask is set in the byte (40_byte_decoder.md R135,
R136); as an operation it changes nothing but the returned value (log 5). -/
def Obligations.FlagTestNeedsEveryMaskBit : Prop :=
  ∀ (byte mask : Byte) (s : State), ∃ v : Bool,
    exec (.flagTest byte mask) s = .next { s with result := .flag v } ∧
    (v = true ↔ byte &&& mask = mask) ∧
    (v = true ↔ ∀ k, k < 8 → mask.getLsbD k = true → byte.getLsbD k = true)

/-- `HEX_DIGIT` is the table's character for the low four bits, for every 8-bit input (40_byte_decoder.md
R137); as an operation it changes nothing but the returned value (log 5). -/
def Obligations.HexDigitReadsTheTable : Prop :=
  ∀ (n : Byte) (s : State),
    exec (.hexDigit n) s = .next { s with result := .digit (digitChar (n.toNat % 16)) }

/-! ### The Status Decoder -/

/-- `PRESSURE_SELECT` (42_status_decoder.md R183); as an operation it changes nothing but the returned value
(log 5). -/
def Obligations.PressureSelectUsesTheSentinel : Prop :=
  ∀ (p : BitVec 16) (s : State),
    exec (.pressureSelect p true) s = .next { s with result := .scaled ⟨p.toInt, -2⟩ } ∧
    exec (.pressureSelect p false) s = .next { s with result := .scaled ⟨-3500, -2⟩ }

/-- `FAULT_FLAG` under both polarities (42_status_decoder.md R184); as an operation it changes nothing but
the returned value (log 5). -/
def Obligations.FaultFlagUnderBothPolarities : Prop :=
  ∀ (b27 : Byte) (s : State), ∃ v : Bool,
    exec (.faultFlag b27) s = .next { s with result := .flag v } ∧
    (s.cfg.faultPolarity = .intended → (v = true ↔ b27.getLsbD 7 = false)) ∧
    (s.cfg.faultPolarity = .sourceLiteral → v = false)

/-- `STATUS_EXTEND` (42_status_decoder.md R185); as an operation it changes nothing but the returned value
(log 5). -/
def Obligations.StatusExtendWidensOnFault : Prop :=
  ∀ (r f : Byte) (s : State), ∃ code : BitVec 9,
    exec (.statusExtend r f true) s = .next { s with result := .status code f } ∧
    code.toNat = 256 + f.toNat ∧
    ∃ plain : BitVec 9,
      exec (.statusExtend r f false) s = .next { s with result := .status plain 0 } ∧
      plain.toNat = r.toNat

/-- `DESC_LOOKUP` for every 9-bit code: the five reachable table entries, and the fallback text for every
other code (42_status_decoder.md R188); entry 999 is never selected (R189). As an operation it changes
nothing but the returned value (log 5). -/
def Obligations.DescLookupMatchesExactly : Prop :=
  ∀ (c : BitVec 9) (s : State), ∃ (sel : DescSel) (text : Text),
    exec (.descLookup c) s = .next { s with result := .desc sel text } ∧
    (c.toNat = 51 → sel = .warmWater ∧ text = ['W', 'a', 'r', 'm', ' ', 'w', 'a', 't', 'e', 'r']) ∧
    (c.toNat = 102 → sel = .cvBrandt ∧ text = ['C', 'V', ' ', 'b', 'r', 'a', 'n', 'd', 't']) ∧
    (c.toNat = 126 → sel = .cvInRust ∧ text = ['C', 'V', ' ', 'i', 'n', ' ', 'r', 'u', 's', 't']) ∧
    (c.toNat = 204 → sel = .tapwaterNadraaien ∧
      text = ['T', 'a', 'p', 'w', 'a', 't', 'e', 'r', ' ',
        'n', 'a', 'd', 'r', 'a', 'a', 'i', 'e', 'n']) ∧
    (c.toNat = 231 → sel = .cvNadraaien ∧
      text = ['C', 'V', ' ', 'N', 'a', 'd', 'r', 'a', 'a', 'i', 'e', 'n']) ∧
    (c.toNat ∉ [51, 102, 126, 204, 231] →
      sel = .code ∧ text = ['C', 'o', 'd', 'e', ' '] ++ decimal3 c.toNat) ∧
    sel ≠ .status999

/-- `HEX_ECHO` renders each of the 32 bytes as its high digit, its low digit and a space, in order
(42_status_decoder.md R190, 30_encoding.md R105); as an operation it changes nothing but the returned value
(log 5). Bytes that hold no value are free (log 7). -/
def Obligations.HexEchoRendersEveryByte : Prop :=
  ∀ s : State, ∃ text : Text,
    exec .hexEcho s = .next { s with result := .text text } ∧
    text.length = 96 ∧
    ∀ i : Fin 32,
      text[3 * i.val]? = some (digitChar ((frameRead s i).toNat / 16)) ∧
      text[3 * i.val + 1]? = some (digitChar ((frameRead s i).toNat % 16)) ∧
      text[3 * i.val + 2]? = some ' '

/-- `DECODE_FRAME` gives every field of the snapshot from the frame's bytes: the pairs low byte first, the
transforms, the flags, the raw bytes (42_status_decoder.md R181, R182, R186, R187); as an operation it
changes nothing but the returned value (log 5). Bytes that hold no value are free (log 7). -/
def Obligations.DecodeFrameGivesEveryField : Prop :=
  ∀ s : State, ∃ x : StatusSnapshot,
    exec .decodeFrame s = .next { s with result := .snapshot x } ∧
    x.t1 = ⟨(frameRead s 1 ++ frameRead s 0 : BitVec 16).toInt, -2⟩ ∧
    x.flowTemp = ⟨(frameRead s 3 ++ frameRead s 2 : BitVec 16).toInt, -2⟩ ∧
    x.t2 = ⟨(frameRead s 5 ++ frameRead s 4 : BitVec 16).toInt, -2⟩ ∧
    x.t3 = ⟨(frameRead s 7 ++ frameRead s 6 : BitVec 16).toInt, -2⟩ ∧
    x.t4 = ⟨(frameRead s 9 ++ frameRead s 8 : BitVec 16).toInt, -2⟩ ∧
    x.t5 = ⟨(frameRead s 11 ++ frameRead s 10 : BitVec 16).toInt, -2⟩ ∧
    x.pressure =
      (if (frameRead s 28).getLsbD 5 = true then
        ⟨(frameRead s 13 ++ frameRead s 12 : BitVec 16).toInt, -2⟩ else ⟨-3500, -2⟩) ∧
    x.setpointTemp = ⟨(frameRead s 15 ++ frameRead s 14 : BitVec 16).toInt, -2⟩ ∧
    x.fanSpeedSetpoint = ⟨(frameRead s 17 ++ frameRead s 16 : BitVec 16).toInt, 0⟩ ∧
    x.fanSpeed = ⟨(frameRead s 19 ++ frameRead s 18 : BitVec 16).toInt, 0⟩ ∧
    x.fanPwm = ⟨(frameRead s 21 ++ frameRead s 20 : BitVec 16).toInt, -1⟩ ∧
    x.ionisationCurrent = ⟨(frameRead s 23 ++ frameRead s 22 : BitVec 16).toInt, -2⟩ ∧
    (s.cfg.faultPolarity = .intended ∧ (frameRead s 27).getLsbD 7 = false →
      x.statusCode.toNat = 256 + (frameRead s 29).toNat ∧ x.faultCode = frameRead s 29) ∧
    (s.cfg.faultPolarity = .sourceLiteral ∨ (frameRead s 27).getLsbD 7 = true →
      x.statusCode.toNat = (frameRead s 24).toNat ∧ x.faultCode = 0) ∧
    x.statusByte1 = frameRead s 26 ∧ x.statusByte2 = frameRead s 28 ∧
    x.hasPressureSensor = (frameRead s 28).getLsbD 5 ∧
    x.openthermActive = (frameRead s 26).getLsbD 7 ∧
    x.pumpRunning = (frameRead s 26).getLsbD 3 ∧
    (x.descSel, x.descText) = descLookup x.statusCode ∧
    x.rawHex = hexEcho (handFrame s)

/-- What a snapshot does not depend on, but for its raw rendering (42_status_decoder.md R193, an inference
of the spec). -/
def Obligations.UndecodedBytesShowOnlyInRawHex : Prop :=
  (∀ (p : FaultPolarity) (a b : Frame),
    (∀ i : Fin 32, i ≠ 25 → i ≠ 30 → i ≠ 31 → a i = b i) →
    { decodeFrame p a with rawHex := [] } = { decodeFrame p b with rawHex := [] }) ∧
  (∀ a b : Frame, (a 27).getLsbD 7 = false →
    (∀ i : Fin 32, i ≠ 24 → i ≠ 25 → i ≠ 30 → i ≠ 31 → a i = b i) →
    { decodeFrame .intended a with rawHex := [] } =
      { decodeFrame .intended b with rawHex := [] }) ∧
  (∀ a b : Frame, (a 27).getLsbD 7 = true →
    (∀ i : Fin 32, i ≠ 29 → i ≠ 25 → i ≠ 30 → i ≠ 31 → a i = b i) →
    { decodeFrame .intended a with rawHex := [] } =
      { decodeFrame .intended b with rawHex := [] })

/-! ### The Frame Assembler -/

/-- `RX_ARRIVE` appends the byte, or loses it when the buffer is full (41_frame_assembler.md R151). -/
def Obligations.RxArriveAppendsOrDrops : Prop :=
  ∀ (data : Byte) (s : State),
    (s.rxFifo.length < s.cfg.rxFifoDepth →
      exec (.rxArrive data) s = .next { s with rxFifo := s.rxFifo ++ [data] }) ∧
    (s.cfg.rxFifoDepth ≤ s.rxFifo.length → exec (.rxArrive data) s = .next s)

/-- `REQ_ISSUE` in `IDLE` flushes, sends the three bytes, and restarts the frame; in `AWAIT` it has no
effect (41_frame_assembler.md R152, R153). -/
def Obligations.ReqIssueFlushesSendsAndAwaits : Prop :=
  ∀ (now : Clock) (s : State),
    (s.acqState = .idle →
      exec (.reqIssue now) s = .next
        { s with
          rxFifo := []
          trace := s.trace ++ [.tx 0x53, .tx 0x3F, .tx 0x0D]
          deadlineAnchor := now
          lastRequest := now
          byteCount := 0
          acqState := .await }) ∧
    (s.acqState = .await → exec (.reqIssue now) s = .next s)

/-- `RX_ACCEPT` appends the byte at the next free position and echoes it; the 32nd byte completes the frame;
every other entry of `frame_buf` and every other field stays (41_frame_assembler.md R156, R158; `cfg`,
`port`, `result`, `epoch` are the model's own, logs 1, 3, 5, 7). -/
def Obligations.RxAcceptAppendsAndEchoes : Prop :=
  ∀ (b : Byte) (s : State), s.acqState = .await → s.byteCount ≤ 31 →
    ∃ t, exec (.rxAccept b) s = .next t ∧
      t.byteCount = s.byteCount + 1 ∧
      t.frameBuf.read s.byteCount = some b ∧
      (∀ i, i ≠ s.byteCount → t.frameBuf.read i = s.frameBuf.read i) ∧
      t.trace = s.trace ++
        [.diag (digitChar (b.toNat / 16)), .diag (digitChar (b.toNat % 16))] ∧
      (s.byteCount < 31 →
        t.acqState = .await ∧ t.frameReady = s.frameReady ∧ t.handBuf = s.handBuf) ∧
      (s.byteCount = 31 →
        t.acqState = .idle ∧ t.frameReady = true ∧ t.handBuf = t.frameBuf) ∧
      t.deadlineAnchor = s.deadlineAnchor ∧ t.lastRequest = s.lastRequest ∧
      t.scanPeriodMs = s.scanPeriodMs ∧ t.rawPublishEn = s.rawPublishEn ∧
      t.rxFifo = s.rxFifo ∧ t.refused = s.refused ∧
      t.cfg = s.cfg ∧ t.port = s.port ∧ t.result = s.result ∧ t.epoch = s.epoch

/-- `FRAME_COMPLETE` hands over the frame as a whole (41_frame_assembler.md R157). -/
def Obligations.FrameCompleteHandsOverTheFrame : Prop :=
  ∀ s : State, s.byteCount = 32 →
    exec .frameComplete s =
      .next { s with handBuf := s.frameBuf, frameReady := true, acqState := .idle }

/-- Outside their preconditions the two micro-operations stop, each under its own name (the preconditions
are 41_frame_assembler.md R156 and R157; the stop is the model's choice, log 8). -/
def Obligations.PreconditionsAreFaultsByName : Prop :=
  (∀ (b : Byte) (s : State), ¬(s.acqState = .await ∧ s.byteCount ≤ 31) →
    exec (.rxAccept b) s = .fault .rxAcceptPrecondition) ∧
  (∀ s : State, s.byteCount ≠ 32 → exec .frameComplete s = .fault .frameCompletePrecondition)

/-- In `IDLE`, `DRAIN` pops nothing and changes nothing (41_frame_assembler.md R155). -/
def Obligations.DrainInIdlePopsNothing : Prop :=
  ∀ s : State, s.acqState = .idle → exec .drain s = .next s

/-- `DRAIN` in `AWAIT` accepts the buffered bytes in order, up to the 32nd of the frame, and leaves the
rest; what it stores and where, what it echoes, when it completes the frame, and what it leaves alone
(41_frame_assembler.md R154; `cfg`, `port`, `result`, `epoch` are the model's own, logs 1, 3, 5, 7). -/
def Obligations.DrainAcceptsUpToTheWholeFrame : Prop :=
  ∀ s : State, s.acqState = .await → s.byteCount ≤ 31 →
    ∃ t, exec .drain s = .next t ∧
      t.rxFifo = s.rxFifo.drop (min s.rxFifo.length (32 - s.byteCount)) ∧
      t.byteCount = s.byteCount + min s.rxFifo.length (32 - s.byteCount) ∧
      t.trace = s.trace ++
        echoEvents (s.rxFifo.take (min s.rxFifo.length (32 - s.byteCount))) ∧
      (∀ j, j < min s.rxFifo.length (32 - s.byteCount) →
        t.frameBuf.read (s.byteCount + j) = s.rxFifo[j]?) ∧
      (∀ i, i < s.byteCount ∨ s.byteCount + min s.rxFifo.length (32 - s.byteCount) ≤ i →
        t.frameBuf.read i = s.frameBuf.read i) ∧
      (s.byteCount + s.rxFifo.length < 32 →
        t.acqState = .await ∧ t.frameReady = s.frameReady ∧ t.handBuf = s.handBuf) ∧
      (32 ≤ s.byteCount + s.rxFifo.length →
        t.byteCount = 32 ∧ t.acqState = .idle ∧ t.frameReady = true ∧ t.handBuf = t.frameBuf) ∧
      t.deadlineAnchor = s.deadlineAnchor ∧ t.lastRequest = s.lastRequest ∧
      t.scanPeriodMs = s.scanPeriodMs ∧ t.rawPublishEn = s.rawPublishEn ∧
      t.refused = s.refused ∧ t.cfg = s.cfg ∧ t.port = s.port ∧ t.result = s.result ∧
      t.epoch = s.epoch

/-- `TIMEOUT_CHECK` (41_frame_assembler.md R159): from an elapsed time of 3000 ms on, in `AWAIT`, the
partial frame is discarded and reported; otherwise nothing changes. -/
def Obligations.TimeoutCheckAbandonsAtTheDeadline : Prop :=
  ∀ (now : Clock) (s : State),
    (s.acqState = .await ∧ 3000 ≤ delta s.cfg now s.deadlineAnchor →
      exec (.timeoutCheck now) s = .next
        { s with
          byteCount := 0
          acqState := .idle
          frameReady := false
          trace := s.trace ++ [.err .timeout (BitVec.ofNat 32 s.byteCount)] }) ∧
    (¬(s.acqState = .await ∧ 3000 ≤ delta s.cfg now s.deadlineAnchor) →
      exec (.timeoutCheck now) s = .next s)

/-- The timeout boundary of an iteration: never at 2999 ms or less, and from 3000 ms on unless the frame
completes in it (41_frame_assembler.md R160, an inference of the spec). -/
def Obligations.TimeoutBoundaryOfAnIteration : Prop :=
  ∀ (now : Clock) (s t : State), exec (.iter true now) s = .next t →
    ∃ ev, t.trace = s.trace ++ ev ∧
      (delta s.cfg now s.deadlineAnchor ≤ 2999 → ∀ n, OutEvent.err .timeout n ∉ ev) ∧
      (s.acqState = .await → 3000 ≤ delta s.cfg now s.deadlineAnchor →
        s.byteCount + s.rxFifo.length < 32 →
        OutEvent.err .timeout (BitVec.ofNat 32 (s.byteCount + s.rxFifo.length)) ∈ ev) ∧
      (s.acqState = .await → s.byteCount ≤ 31 → 32 ≤ s.byteCount + s.rxFifo.length →
        ∀ n, OutEvent.err .timeout n ∉ ev)

/-- Elapsed time is the plain difference without a wrap, and the difference plus the modulus across one
(00_scope.md R17, 70_reset_and_hazards.md R277). -/
def Obligations.ElapsedTimeAcrossAWrap : Prop :=
  ∀ (c : Config) (now anchor : Clock), now.toNat < 2 ^ c.clkW → anchor.toNat < 2 ^ c.clkW →
    (anchor.toNat ≤ now.toNat → delta c now anchor = now.toNat - anchor.toNat) ∧
    (now.toNat < anchor.toNat → delta c now anchor = now.toNat + 2 ^ c.clkW - anchor.toNat)

/-! ### The Poll Scheduler and the control loop -/

/-- `SCHED_CHECK` issues a request exactly when the block is `IDLE` and the scan period has elapsed;
otherwise it changes nothing (43_poll_scheduler.md R213). -/
def Obligations.SchedCheckIssuesWhenDue : Prop :=
  ∀ (now : Clock) (s : State),
    (s.acqState = .idle ∧ s.scanPeriodMs.toNat ≤ delta s.cfg now s.lastRequest →
      exec (.schedCheck now) s = .next
        { s with
          rxFifo := []
          trace := s.trace ++ [.tx 0x53, .tx 0x3F, .tx 0x0D]
          deadlineAnchor := now
          lastRequest := now
          byteCount := 0
          acqState := .await }) ∧
    (¬(s.acqState = .idle ∧ s.scanPeriodMs.toNat ≤ delta s.cfg now s.lastRequest) →
      exec (.schedCheck now) s = .next s)

/-- While a response stays outstanding through an iteration, the iteration sends nothing, however long the
scan period has elapsed (43_poll_scheduler.md R214, an inference of the spec). -/
def Obligations.NoRequestWhileAwaiting : Prop :=
  ∀ (now : Clock) (s : State), s.acqState = .await → s.byteCount + s.rxFifo.length < 32 →
    delta s.cfg now s.deadlineAnchor < 3000 →
    ∃ t, exec (.iter true now) s = .next t ∧ t.acqState = .await ∧
      t.lastRequest = s.lastRequest ∧
      ∃ ev, t.trace = s.trace ++ ev ∧ txBytes ev = []

/-- `DECODE_PUBLISH` publishes the snapshot of `hand_buf`, and its raw rendering where enabled, and clears
`frame_ready`; without a frame it changes nothing (43_poll_scheduler.md R217). -/
def Obligations.DecodePublishEmitsTheSnapshot : Prop :=
  ∀ s : State,
    (s.frameReady = true → s.rawPublishEn = true →
      exec .decodePublish s = .next
        { s with
          frameReady := false
          trace := s.trace ++
            [.snap (decodeFrame s.cfg.faultPolarity (frameRead s)),
              .raw (decodeFrame s.cfg.faultPolarity (frameRead s)).rawHex] }) ∧
    (s.frameReady = true → s.rawPublishEn = false →
      exec .decodePublish s = .next
        { s with
          frameReady := false
          trace := s.trace ++ [.snap (decodeFrame s.cfg.faultPolarity (frameRead s))] }) ∧
    (s.frameReady = false → exec .decodePublish s = .next s)

/-- An iteration with the transport not ready reports it and does nothing else (43_poll_scheduler.md R212).
-/
def Obligations.NotReadyIterationOnlyReports : Prop :=
  ∀ (now : Clock) (s : State),
    exec (.iter false now) s =
      .next { s with trace := s.trace ++ [.err .hardwareUnavailable 0] }

/-- An iteration with the transport ready is `DRAIN`, `TIMEOUT_CHECK`, `SCHED_CHECK`, `DECODE_PUBLISH` in
this order, with one clock sample; it completes wherever the bound of 10_state.md R32 holds
(43_poll_scheduler.md R210, R211). -/
def Obligations.IterationRunsItsStagesInOrder : Prop :=
  ∀ (now : Clock) (s : State), (s.acqState = .await → s.byteCount ≤ 31) →
    ∃ drained checked scheduled t,
      exec .drain s = .next drained ∧
      exec (.timeoutCheck now) drained = .next checked ∧
      exec (.schedCheck now) checked = .next scheduled ∧
      exec .decodePublish scheduled = .next t ∧
      exec (.iter true now) s = .next t ∧
      exec (.iter false now) s =
        .next { s with trace := s.trace ++ [.err .hardwareUnavailable 0] }

/-- The output events of one iteration, in order: the echoes, a timeout, a request, a snapshot with its raw
rendering; a timeout and a snapshot never come together (60_exceptions.md R247, an inference of the spec).
-/
def Obligations.IterationOutputOrder : Prop :=
  ∀ (now : Clock) (s : State), (s.acqState = .await → s.byteCount ≤ 31) →
    ∃ (t : State) (accepted : List Byte) (timeouts requests published : List OutEvent),
      exec (.iter true now) s = .next t ∧
      t.trace = s.trace ++ (echoEvents accepted ++ timeouts ++ requests ++ published) ∧
      (timeouts = [] ∨ ∃ n, n ≤ 31 ∧ timeouts = [.err .timeout (BitVec.ofNat 32 n)]) ∧
      (requests = [] ∨ requests = requestEvents) ∧
      (published = [] ∨
        ∃ x, published = .snap x :: (if s.rawPublishEn then [.raw x.rawHex] else [])) ∧
      (timeouts = [] ∨ published = [])

/-- What an iteration leaves alone: the configuration, the mark, and every entry of `frame_buf` but those it
accepts a byte into; and `hand_buf` but for a completed frame (43_poll_scheduler.md R210,
41_frame_assembler.md R156, R157; `cfg`, `port`, `result`, `epoch` are the model's own, logs 1, 3, 5, 7). -/
def Obligations.IterationFrame : Prop :=
  ∀ (ready : Bool) (now : Clock) (s t : State), exec (.iter ready now) s = .next t →
    t.scanPeriodMs = s.scanPeriodMs ∧ t.rawPublishEn = s.rawPublishEn ∧
    t.refused = s.refused ∧ t.cfg = s.cfg ∧ t.port = s.port ∧ t.result = s.result ∧
    t.epoch = s.epoch ∧
    (∀ i, i < s.byteCount ∨ s.byteCount + drainCount s ≤ i →
      t.frameBuf.read i = s.frameBuf.read i) ∧
    (ready = false ∨ s.acqState = .idle ∨ s.byteCount + s.rxFifo.length < 32 →
      t.handBuf = s.handBuf) ∧
    (ready = true → s.acqState = .await → s.byteCount ≤ 31 → 32 ≤ s.byteCount + s.rxFifo.length →
      t.handBuf = t.frameBuf)

/-- `CFG_SCAN_PERIOD` stores an accepted number of seconds in milliseconds, and reports any other payload
and changes nothing else (43_poll_scheduler.md R224). -/
def Obligations.CfgScanPeriodValidates : Prop :=
  ∀ (w : BitVec 32) (s : State), s.cfg.Wf →
    (2 ≤ w.toInt ∧ w.toInt ≤ (scanSMax s.cfg : Int) → ∃ v : BitVec 32,
      exec (.cfgScanPeriod w) s = .next { s with scanPeriodMs := v } ∧
      (v.toNat : Int) = w.toInt * 1000) ∧
    (¬(2 ≤ w.toInt ∧ w.toInt ≤ (scanSMax s.cfg : Int)) →
      exec (.cfgScanPeriod w) s =
        .next { s with trace := s.trace ++ [.err .malformedCommand w] })

/-- The largest accepted scan period (00_scope.md R12). -/
def Obligations.LargestScanPeriod : Prop :=
  (∀ c : Config, scanSMax c = min (2 ^ 31 - 1) ((2 ^ c.clkW - 1) / 1000)) ∧
  (∀ c : Config, c.clkW = 32 → scanSMax c = 4294967)

/-- `CFG_RAW_PUBLISH` takes 0 and 1, and reports any other payload and changes nothing else
(43_poll_scheduler.md R226). -/
def Obligations.CfgRawPublishValidates : Prop :=
  ∀ (w : BitVec 32) (s : State),
    (w.toNat = 0 → exec (.cfgRawPublish w) s = .next { s with rawPublishEn := false }) ∧
    (w.toNat = 1 → exec (.cfgRawPublish w) s = .next { s with rawPublishEn := true }) ∧
    (2 ≤ w.toNat → exec (.cfgRawPublish w) s =
      .next { s with trace := s.trace ++ [.err .malformedCommand w] })

/-- Neither reconfiguration event touches the Frame Assembler or the anchors (43_poll_scheduler.md R227, an
inference of the spec). -/
def Obligations.ReconfigurationLeavesTheAssembler : Prop :=
  ∀ (i : Instr) (s t : State),
    ((∃ w, i = .cfgScanPeriod w) ∨ (∃ w, i = .cfgRawPublish w)) → exec i s = .next t →
    t.acqState = s.acqState ∧ t.byteCount = s.byteCount ∧
    (∀ k, t.frameBuf.read k = s.frameBuf.read k) ∧ (∀ k, t.handBuf.read k = s.handBuf.read k) ∧
    t.rxFifo = s.rxFifo ∧ t.frameReady = s.frameReady ∧
    t.deadlineAnchor = s.deadlineAnchor ∧ t.lastRequest = s.lastRequest

/-! ### Whole-machine rules -/

/-- The Frame Assembler moves only by its three transitions: a micro-operation that changes `acq_state`
issued a request, completed a frame, or timed out; of the host events other than `ITER`, only `RESET`
changes it (41_frame_assembler.md R150). -/
def Obligations.AssemblerHasThreeTransitions : Prop :=
  (∀ (i : Instr) (s t : State), i.isEvent = false → exec i s = .next t → t.acqState ≠ s.acqState →
    (s.acqState = .idle ∧ t.acqState = .await ∧ t.byteCount = 0 ∧
      t.trace = s.trace ++ requestEvents) ∨
    (s.acqState = .await ∧ t.acqState = .idle ∧ t.frameReady = true ∧ t.byteCount = 32 ∧
      t.handBuf = t.frameBuf) ∨
    (s.acqState = .await ∧ t.acqState = .idle ∧ t.frameReady = false ∧ t.byteCount = 0 ∧
      t.trace = s.trace ++ [.err .timeout (BitVec.ofNat 32 s.byteCount)])) ∧
  (∀ (i : Instr) (s t : State), i.isEvent = true → i ≠ .reset → (∀ r n, i ≠ .iter r n) →
    exec i s = .next t → t.acqState = s.acqState)

/-- The block sends no byte but the three request bytes, and only where `REQ_ISSUE` runs (30_encoding.md
R92, an inference of the spec). -/
def Obligations.OnlyRequestBytesAreSent : Prop :=
  ∀ (i : Instr) (s t : State), exec i s = .next t →
    ∃ ev, t.trace = s.trace ++ ev ∧
      (txBytes ev = [] ∨
        (txBytes ev = [0x53, 0x3F, 0x0D] ∧
          ∃ now, i = .iter true now ∨ i = .schedCheck now ∨ i = .reqIssue now))

/-- The scheduling anchor moves exactly when a request is issued, to the iteration's clock sample, and the
deadline anchor with it (43_poll_scheduler.md R215, an inference of the spec; 10_state.md R37). -/
def Obligations.AnchorMovesExactlyOnARequest : Prop :=
  ∀ (i : Instr) (s t : State), i ≠ .reset → exec i s = .next t →
    ∃ ev, t.trace = s.trace ++ ev ∧
      (txBytes ev = [] → t.lastRequest = s.lastRequest ∧ t.deadlineAnchor = s.deadlineAnchor) ∧
      (txBytes ev ≠ [] → ∃ now, (i = .iter true now ∨ i = .schedCheck now ∨ i = .reqIssue now) ∧
        t.lastRequest = now ∧ t.deadlineAnchor = now)

/-- One event's outputs are bounded: at most 64 diagnostic characters, three sent bytes, one snapshot, and
70 output events in all (70_reset_and_hazards.md R286, an inference of the spec). -/
def Obligations.OutputsOfOneEventAreBounded : Prop :=
  ∀ (i : Instr) (s t : State), exec i s = .next t →
    ∃ ev, t.trace = s.trace ++ ev ∧
      diagCount ev ≤ 64 ∧ (txBytes ev).length ≤ 3 ∧ (snapshots ev).length ≤ 1 ∧ ev.length ≤ 70

/-- A snapshot comes only from a whole frame: on the words of a host, a step that publishes one started in
`AWAIT` with the rest of the frame buffered, and the snapshot is that of exactly those 32 bytes in arrival
order (41_frame_assembler.md R161 and 20_memory.md R73, inferences of the spec; what an entry without a
value reads as is free, log 7, and reaches no snapshot here). -/
def Obligations.SnapshotsComeFromWholeFrames : Prop :=
  ∀ s t : State, HostInv s → step s = .next t →
    ∃ ev, t.trace = s.trace ++ ev ∧
      ∀ x ∈ snapshots ev, s.acqState = .await ∧ 32 ≤ s.byteCount + s.rxFifo.length ∧
        x = decodeFrame s.cfg.faultPolarity (assembledFrame s)

/-- A whole frame is always published, once, at whatever clock sample the iteration comes, and is not timed
out; the bytes after the 32nd reach no frame of this iteration (41_frame_assembler.md R154, R157,
43_poll_scheduler.md R217, 70_reset_and_hazards.md R278). -/
def Obligations.WholeFrameIsPublishedOnce : Prop :=
  ∀ (now : Clock) (s : State), HostInv s → s.acqState = .await →
    32 ≤ s.byteCount + s.rxFifo.length →
    ∃ t ev, exec (.iter true now) s = .next t ∧ t.trace = s.trace ++ ev ∧
      snapshots ev = [decodeFrame s.cfg.faultPolarity (assembledFrame s)] ∧
      (∀ n, OutEvent.err .timeout n ∉ ev) ∧ t.frameReady = false ∧
      (∀ i : Fin 32, t.handBuf.read i.val = some (assembledFrame s i))

/-! ### Beside the machine -/

/-- The pseudo-lines of an event script assemble to the words of the plain lines they stand for
(30_encoding.md R119, R120). That a line takes bytes, so that its characters and hex digits are not modelled,
is the model's choice (log 14). -/
def Obligations.PseudoLinesExpand : Prop :=
  (∀ bytes : List Byte, assemble [.rxs bytes] = assemble (bytes.map ScriptLine.rx)) ∧
  (∀ bytes : Vector Byte 32,
    assemble [.rxFrame bytes] = assemble (bytes.toList.map ScriptLine.rx) ∧
    (assemble [.rxFrame bytes]).length = 32) ∧
  (∀ now : Clock, assemble [.idleIter now] = assemble [.iter now true]) ∧
  (∀ now : Clock, assemble [.down now] = assemble [.iter now false])

/-- The string of a temperature: a sign below zero, the whole degrees without leading zeros, a point, two
digits (42_status_decoder.md R195). -/
def Obligations.TemperatureStringHasTwoDigits : Prop :=
  ∀ raw : Int, -32768 ≤ raw → raw ≤ 32767 →
    temperatureText ⟨raw, -2⟩ =
      (if raw < 0 then ['-'] else []) ++ decimal3 (raw.natAbs / 100) ++
        ['.', digitChar (raw.natAbs % 100 / 10), digitChar (raw.natAbs % 100 % 10)]
end

