-- ==== Sys2Proof/Laws/Clock.lean ====
section
/-! SUPPORT. The laws of elapsed time (00_scope.md R17). -/

namespace Sys2Proof.Machine

theorem modulus_pos (c : Config) : 0 < c.modulus := Nat.pow_pos (by decide)

/-- Elapsed time is below the modulus. -/
theorem delta_lt (c : Config) (now anchor : Clock) : delta c now anchor < c.modulus := by
  have hm : (0 : Int) < (c.modulus : Int) := by exact_mod_cast modulus_pos c
  have h1 := Int.emod_nonneg ((now.toNat : Int) - anchor.toNat) (ne_of_gt hm)
  have h2 := Int.emod_lt_of_pos ((now.toNat : Int) - anchor.toNat) hm
  unfold delta
  omega

/-- Without a wrap, elapsed time is the difference of the samples. -/
theorem delta_of_le (c : Config) (now anchor : Clock) (h : anchor.toNat ≤ now.toNat)
    (hn : now.toNat < c.modulus) : delta c now anchor = now.toNat - anchor.toNat := by
  unfold delta
  rw [Int.emod_eq_of_lt (by omega) (by omega)]
  omega

/-- Across one wrap, elapsed time is the difference plus the modulus. -/
theorem delta_of_lt (c : Config) (now anchor : Clock) (h : now.toNat < anchor.toNat)
    (ha : anchor.toNat < c.modulus) :
    delta c now anchor = now.toNat + c.modulus - anchor.toNat := by
  unfold delta
  rw [← Int.add_emod_right, Int.emod_eq_of_lt (by omega) (by omega)]
  omega

/-- A parameter set's modulus covers every value a 14-bit clock has. -/
theorem modulus_ge (c : Config) (h : c.Wf) : 2 ^ 14 ≤ c.modulus :=
  Nat.pow_le_pow_right (by decide) h.1

theorem modulus_le (c : Config) (h : c.Wf) : c.modulus ≤ 2 ^ 32 :=
  Nat.pow_le_pow_right (by decide) h.2.1

/-- An accepted scan period fits 32 bits and lies below the modulus (43_poll_scheduler.md R224). -/
theorem scanSMax_mul_lt (c : Config) (h : c.Wf) (k : Nat) (hk : k ≤ scanSMax c) :
    1000 * k < c.modulus ∧ 1000 * k < 2 ^ 32 := by
  have h1 := modulus_ge c h
  have h2 := modulus_le c h
  have h3 : k ≤ (c.modulus - 1) / 1000 := le_trans hk (Nat.min_le_right _ _)
  omega

end Sys2Proof.Machine
end

