-- ==== Sys2Proof/Laws/Decode.lean ====
section
/-! SUPPORT. What the decoder accepts, said once. -/

namespace Sys2Proof

theorem whenReservedZero_ok {n : Nat} {r : BitVec n} {i j : Instr}
    (h : whenReservedZero r i = .ok j) : r = 0 ∧ j = i := by
  unfold whenReservedZero at h
  split at h
  · next h0 => cases h; exact ⟨h0, rfl⟩
  · cases h

theorem whenClock_ok {c : Config} {now : Clock} {i j : Instr}
    (h : whenClock c now i = .ok j) : Clock.wf c now = true ∧ j = i := by
  unfold whenClock at h
  split at h
  · next h0 => cases h; exact ⟨h0, rfl⟩
  · cases h

/-- A decoded event word is a well-formed host event (30_encoding.md R117, R121). -/
theorem decodeEvent_wf {c : Config} {w : EventWord} {i : Instr} (h : decodeEvent c w = .ok i) :
    i.wf c = true ∧ i.isEvent = true := by
  unfold decodeEvent at h
  repeat' split at h
  all_goals first
    | cases h
    | (obtain ⟨-, rfl⟩ := whenReservedZero_ok h; exact ⟨rfl, rfl⟩)
    | (obtain ⟨hc, rfl⟩ := whenClock_ok h; exact ⟨hc, rfl⟩)

/-- A decoded micro-operation word is a well-formed micro-operation (log 4). -/
theorem decodeMicro_wf {c : Config} {u : MicroWord} {i : Instr} (h : decodeMicro c u = .ok i) :
    i.wf c = true ∧ i.isEvent = false := by
  unfold decodeMicro at h
  split at h
  all_goals first
    | cases h
    | (obtain ⟨-, rfl⟩ := whenReservedZero_ok h; exact ⟨rfl, rfl⟩)
    | (obtain ⟨hc, rfl⟩ := whenClock_ok h; exact ⟨hc, rfl⟩)

/-- Whatever is decoded is well-formed, and an event exactly when its word is one. -/
theorem decode_wf {c : Config} {code : Code} {i : Instr} (h : decode c code = .ok i) :
    i.wf c = true ∧ i.isEvent = code.isEvent := by
  cases code with
  | event w => exact decodeEvent_wf h
  | micro u => exact decodeMicro_wf h

/-- Field extraction, bit by bit. -/
theorem bitsAt_getLsbD {n : Nat} (w : BitVec n) (lo len i : Nat) :
    (bitsAt w lo len).getLsbD i = (decide (i < len) && w.getLsbD (lo + i)) := by
  simp [bitsAt, BitVec.getLsbD_extractLsb']

end Sys2Proof

namespace Sys2Proof.Machine

/-- A step with no word at the port. -/
theorem step_idle (s : State) (h : s.port = []) : step s = .next s := by simp [step, h]

/-- A step whose word decodes. -/
theorem step_decoded (s : State) (code : Code) (rest : List Code) (i : Instr)
    (hp : s.port = code :: rest) (hd : decode s.cfg code = .ok i) :
    step s = exec i { s with port := rest } := by
  simp [step, hp, hd]

/-- A step whose word is rejected. -/
theorem step_rejected (s : State) (code : Code) (rest : List Code) (e : DecodeError)
    (hp : s.port = code :: rest) (hd : decode s.cfg code = .error e) :
    step s = rejectWord code e { s with port := rest } := by
  simp [step, hp, hd]

/-- What a step that answers a next state was: idle, a performed word, or a refused event word. -/
theorem step_next_cases {s t : State} (h : step s = .next t) :
    (s.port = [] ∧ t = s) ∨
    (∃ code rest i, s.port = code :: rest ∧ decode s.cfg code = .ok i ∧
      exec i { s with port := rest } = .next t) ∨
    (∃ w rest e, s.port = .event w :: rest ∧ decode s.cfg (.event w) = .error e ∧
      t = { s with port := rest, refused := true }) := by
  cases hp : s.port with
  | nil => rw [step_idle s hp] at h; cases h; exact .inl ⟨rfl, rfl⟩
  | cons code rest =>
    cases hd : decode s.cfg code with
    | ok i => exact .inr (.inl ⟨code, rest, i, rfl, hd, by rwa [step_decoded s code rest i hp hd] at h⟩)
    | error e =>
      rw [step_rejected s code rest e hp hd] at h
      cases code with
      | event w => cases h; exact .inr (.inr ⟨w, rest, e, rfl, hd, rfl⟩)
      | micro u => cases h

end Sys2Proof.Machine
end

