-- ==== Sys2Proof/Laws/Encoding.lean ====
section
/-! SUPPORT. The bits of an encoded word, field by field. -/

namespace Sys2Proof

/-- The bits of a placed field. -/
theorem fieldAt_getLsbD {k n : Nat} (x : BitVec k) (lo i : Nat) :
    (fieldAt n x lo).getLsbD i = (decide (i < n) && decide (lo ≤ i) && x.getLsbD (i - lo)) := by
  simp only [fieldAt, BitVec.getLsbD_shiftLeft, BitVec.getLsbD_setWidth]
  by_cases h1 : i < n <;> by_cases h2 : lo ≤ i
  · have h3 : i - lo < n := by omega
    have h4 : ¬i < lo := by omega
    simp [h1, h2, h3, h4]
  · have h4 : i < lo := by omega
    simp [h1, h2, h4]
  · simp [h1]
  · simp [h1]

/-- Reading back the field placed at the position read. -/
theorem bitsAt_fieldAt_same {k n : Nat} (x : BitVec k) (lo : Nat) (h : lo + k ≤ n) :
    bitsAt (fieldAt n x lo) lo k = x := by
  apply BitVec.eq_of_getLsbD_eq
  intro i hi
  rw [bitsAt_getLsbD, fieldAt_getLsbD]
  have h1 : lo + i < n := by omega
  simp [hi, h1]

/-- Reading below or above a placed field gives zeros. -/
theorem bitsAt_fieldAt_apart {k n : Nat} (x : BitVec k) (lo at_ len : Nat)
    (h : at_ + len ≤ lo ∨ lo + k ≤ at_) : bitsAt (fieldAt n x lo) at_ len = 0 := by
  apply BitVec.eq_of_getLsbD_eq
  intro i hi
  rw [bitsAt_getLsbD, fieldAt_getLsbD]
  rcases h with h | h
  · have h1 : ¬lo ≤ at_ + i := by omega
    simp [h1]
  · have h1 : x.getLsbD (at_ + i - lo) = false := BitVec.getLsbD_of_ge _ _ (by omega)
    simp [h1]

/-- Reading a field distributes over the union of placed fields. -/
theorem bitsAt_or {n : Nat} (x y : BitVec n) (lo len : Nat) :
    bitsAt (x ||| y) lo len = bitsAt x lo len ||| bitsAt y lo len := by
  apply BitVec.eq_of_getLsbD_eq
  intro i hi
  simp only [bitsAt_getLsbD, BitVec.getLsbD_or]
  cases decide (i < len) <;> simp

end Sys2Proof
end

