-- ==== Sys2Proof/Laws/Memory.lean ====
section
/-! SUPPORT. The laws of the byte buffers: a read after a write, and the canonical form. -/

namespace Sys2Proof.Machine

@[simp] theorem Memory.read_nil (i : Nat) : Memory.read [] i = none := rfl

theorem Memory.wf_nil : Memory.wf [] := by simp [Memory.wf]

/-- A read after a write to the same offset gives the byte written. -/
@[simp] theorem Memory.read_write_same (m : Memory) (i : Nat) (v : Byte) :
    (m.write i v).read i = some v := by
  induction m with
  | nil => simp [Memory.write, Memory.read]
  | cons cell rest ih =>
    obtain ⟨a, b⟩ := cell
    unfold Memory.write
    split
    · simp [Memory.read]
    · split
      · simp_all [Memory.read]
      · simp_all [Memory.read]

/-- A write leaves every other offset alone. -/
theorem Memory.read_write_other (m : Memory) {i j : Nat} (v : Byte) (h : j ≠ i) :
    (m.write i v).read j = m.read j := by
  induction m with
  | nil => simp [Memory.write, Memory.read, h]
  | cons cell rest ih =>
    obtain ⟨a, b⟩ := cell
    unfold Memory.write
    split
    · simp [Memory.read, h]
    · split
      · next hia => subst hia; simp [Memory.read, h]
      · simp [Memory.read, ih]

/-- Every entry of a written buffer is the one written or was there before. -/
theorem Memory.mem_write (m : Memory) (i : Nat) (v : Byte) (cell : Host.Cell)
    (h : cell ∈ m.write i v) : cell = (i, v) ∨ cell ∈ m := by
  induction m with
  | nil => simpa [Memory.write] using h
  | cons head rest ih =>
    obtain ⟨a, b⟩ := head
    unfold Memory.write at h
    split at h
    · simpa using h
    · split at h
      · next hia => subst hia; simp only [List.mem_cons] at h ⊢; tauto
      · simp only [List.mem_cons] at h ⊢; tauto

/-- A write keeps the canonical form. -/
theorem Memory.write_wf (m : Memory) (i : Nat) (v : Byte) (hm : Memory.wf m) (hi : i < 32) :
    Memory.wf (m.write i v) := by
  obtain ⟨hs, hb⟩ := hm
  refine ⟨?_, fun cell hc => ?_⟩
  · induction m with
    | nil => simp [Memory.write]
    | cons head rest ih =>
      obtain ⟨a, b⟩ := head
      rw [List.pairwise_cons] at hs
      unfold Memory.write
      split
      · next hlt =>
        refine List.pairwise_cons.2 ⟨fun c hc => ?_, List.pairwise_cons.2 hs⟩
        rcases List.mem_cons.1 hc with rfl | hc
        · exact hlt
        · exact lt_trans hlt (hs.1 c hc)
      · split
        · next hia => subst hia; exact List.pairwise_cons.2 hs
        · next h1 h2 =>
          refine List.pairwise_cons.2
            ⟨fun c hc => ?_, ih hs.2 fun c hc => hb c (List.mem_cons_of_mem _ hc)⟩
          rcases Memory.mem_write rest i v c hc with rfl | hc
          · show a < i
            omega
          · exact hs.1 c hc
  · rcases Memory.mem_write m i v cell hc with rfl | hc
    · exact hi
    · exact hb cell hc

/-- No entry at or past 32 in a canonical buffer. -/
theorem Memory.read_out_of_range (m : Memory) (i : Nat) (hm : Memory.wf m) (hi : 32 ≤ i) :
    m.read i = none := by
  obtain ⟨-, hb⟩ := hm
  induction m with
  | nil => rfl
  | cons head rest ih =>
    obtain ⟨a, b⟩ := head
    have ha : a < 32 := hb (a, b) List.mem_cons_self
    have hne : i ≠ a := by omega
    simp only [Memory.read, hne, if_false]
    exact ih fun c hc => hb c (List.mem_cons_of_mem _ hc)

theorem Memory.filled_zero (m : Memory) : m.filled 0 := fun _ h => absurd h (Nat.not_lt_zero _)

/-- Appending at the next free position fills one entry more. -/
theorem Memory.filled_write (m : Memory) (n : Nat) (v : Byte) (h : m.filled n) :
    (m.write n v).filled (n + 1) := by
  intro i hi
  by_cases hin : i = n
  · subst hin; simp
  · rw [Memory.read_write_other m v hin]
    exact h i (by omega)

end Sys2Proof.Machine
end

