-- ==== Sys2Proof/Laws/State.lean ====
section
/-! SUPPORT. One lemma per field per update of the state, so that no proof unfolds a record update. -/

namespace Sys2Proof.Machine

/-! ### `emit` -/

@[simp] theorem emit_acqState (ev : OutEvent) (s : State) :
    (emit ev s).acqState = s.acqState := rfl
@[simp] theorem emit_byteCount (ev : OutEvent) (s : State) :
    (emit ev s).byteCount = s.byteCount := rfl
@[simp] theorem emit_frameBuf (ev : OutEvent) (s : State) :
    (emit ev s).frameBuf = s.frameBuf := rfl
@[simp] theorem emit_deadlineAnchor (ev : OutEvent) (s : State) :
    (emit ev s).deadlineAnchor = s.deadlineAnchor := rfl
@[simp] theorem emit_frameReady (ev : OutEvent) (s : State) :
    (emit ev s).frameReady = s.frameReady := rfl
@[simp] theorem emit_handBuf (ev : OutEvent) (s : State) :
    (emit ev s).handBuf = s.handBuf := rfl
@[simp] theorem emit_lastRequest (ev : OutEvent) (s : State) :
    (emit ev s).lastRequest = s.lastRequest := rfl
@[simp] theorem emit_scanPeriodMs (ev : OutEvent) (s : State) :
    (emit ev s).scanPeriodMs = s.scanPeriodMs := rfl
@[simp] theorem emit_rawPublishEn (ev : OutEvent) (s : State) :
    (emit ev s).rawPublishEn = s.rawPublishEn := rfl
@[simp] theorem emit_rxFifo (ev : OutEvent) (s : State) :
    (emit ev s).rxFifo = s.rxFifo := rfl
@[simp] theorem emit_refused (ev : OutEvent) (s : State) :
    (emit ev s).refused = s.refused := rfl
@[simp] theorem emit_trace (ev : OutEvent) (s : State) :
    (emit ev s).trace = s.trace ++ [ev] := rfl
@[simp] theorem emit_cfg (ev : OutEvent) (s : State) :
    (emit ev s).cfg = s.cfg := rfl
@[simp] theorem emit_port (ev : OutEvent) (s : State) :
    (emit ev s).port = s.port := rfl
@[simp] theorem emit_result (ev : OutEvent) (s : State) :
    (emit ev s).result = s.result := rfl
@[simp] theorem emit_epoch (ev : OutEvent) (s : State) :
    (emit ev s).epoch = s.epoch := rfl

/-! ### `txPut` -/

@[simp] theorem txPut_acqState (b : Byte) (s : State) :
    (txPut b s).acqState = s.acqState := rfl
@[simp] theorem txPut_byteCount (b : Byte) (s : State) :
    (txPut b s).byteCount = s.byteCount := rfl
@[simp] theorem txPut_frameBuf (b : Byte) (s : State) :
    (txPut b s).frameBuf = s.frameBuf := rfl
@[simp] theorem txPut_deadlineAnchor (b : Byte) (s : State) :
    (txPut b s).deadlineAnchor = s.deadlineAnchor := rfl
@[simp] theorem txPut_frameReady (b : Byte) (s : State) :
    (txPut b s).frameReady = s.frameReady := rfl
@[simp] theorem txPut_handBuf (b : Byte) (s : State) :
    (txPut b s).handBuf = s.handBuf := rfl
@[simp] theorem txPut_lastRequest (b : Byte) (s : State) :
    (txPut b s).lastRequest = s.lastRequest := rfl
@[simp] theorem txPut_scanPeriodMs (b : Byte) (s : State) :
    (txPut b s).scanPeriodMs = s.scanPeriodMs := rfl
@[simp] theorem txPut_rawPublishEn (b : Byte) (s : State) :
    (txPut b s).rawPublishEn = s.rawPublishEn := rfl
@[simp] theorem txPut_rxFifo (b : Byte) (s : State) :
    (txPut b s).rxFifo = s.rxFifo := rfl
@[simp] theorem txPut_refused (b : Byte) (s : State) :
    (txPut b s).refused = s.refused := rfl
@[simp] theorem txPut_trace (b : Byte) (s : State) :
    (txPut b s).trace = s.trace ++ [.tx b] := rfl
@[simp] theorem txPut_cfg (b : Byte) (s : State) :
    (txPut b s).cfg = s.cfg := rfl
@[simp] theorem txPut_port (b : Byte) (s : State) :
    (txPut b s).port = s.port := rfl
@[simp] theorem txPut_result (b : Byte) (s : State) :
    (txPut b s).result = s.result := rfl
@[simp] theorem txPut_epoch (b : Byte) (s : State) :
    (txPut b s).epoch = s.epoch := rfl

/-! ### `raise` -/

@[simp] theorem raise_acqState (code : ErrCode) (info : BitVec 32) (s : State) :
    (raise code info s).acqState = s.acqState := rfl
@[simp] theorem raise_byteCount (code : ErrCode) (info : BitVec 32) (s : State) :
    (raise code info s).byteCount = s.byteCount := rfl
@[simp] theorem raise_frameBuf (code : ErrCode) (info : BitVec 32) (s : State) :
    (raise code info s).frameBuf = s.frameBuf := rfl
@[simp] theorem raise_deadlineAnchor (code : ErrCode) (info : BitVec 32) (s : State) :
    (raise code info s).deadlineAnchor = s.deadlineAnchor := rfl
@[simp] theorem raise_frameReady (code : ErrCode) (info : BitVec 32) (s : State) :
    (raise code info s).frameReady = s.frameReady := rfl
@[simp] theorem raise_handBuf (code : ErrCode) (info : BitVec 32) (s : State) :
    (raise code info s).handBuf = s.handBuf := rfl
@[simp] theorem raise_lastRequest (code : ErrCode) (info : BitVec 32) (s : State) :
    (raise code info s).lastRequest = s.lastRequest := rfl
@[simp] theorem raise_scanPeriodMs (code : ErrCode) (info : BitVec 32) (s : State) :
    (raise code info s).scanPeriodMs = s.scanPeriodMs := rfl
@[simp] theorem raise_rawPublishEn (code : ErrCode) (info : BitVec 32) (s : State) :
    (raise code info s).rawPublishEn = s.rawPublishEn := rfl
@[simp] theorem raise_rxFifo (code : ErrCode) (info : BitVec 32) (s : State) :
    (raise code info s).rxFifo = s.rxFifo := rfl
@[simp] theorem raise_refused (code : ErrCode) (info : BitVec 32) (s : State) :
    (raise code info s).refused = s.refused := rfl
@[simp] theorem raise_trace (code : ErrCode) (info : BitVec 32) (s : State) :
    (raise code info s).trace = s.trace ++ [.err code info] := rfl
@[simp] theorem raise_cfg (code : ErrCode) (info : BitVec 32) (s : State) :
    (raise code info s).cfg = s.cfg := rfl
@[simp] theorem raise_port (code : ErrCode) (info : BitVec 32) (s : State) :
    (raise code info s).port = s.port := rfl
@[simp] theorem raise_result (code : ErrCode) (info : BitVec 32) (s : State) :
    (raise code info s).result = s.result := rfl
@[simp] theorem raise_epoch (code : ErrCode) (info : BitVec 32) (s : State) :
    (raise code info s).epoch = s.epoch := rfl

/-! ### `rxFlush` -/

@[simp] theorem rxFlush_acqState (s : State) :
    (rxFlush s).acqState = s.acqState := rfl
@[simp] theorem rxFlush_byteCount (s : State) :
    (rxFlush s).byteCount = s.byteCount := rfl
@[simp] theorem rxFlush_frameBuf (s : State) :
    (rxFlush s).frameBuf = s.frameBuf := rfl
@[simp] theorem rxFlush_deadlineAnchor (s : State) :
    (rxFlush s).deadlineAnchor = s.deadlineAnchor := rfl
@[simp] theorem rxFlush_frameReady (s : State) :
    (rxFlush s).frameReady = s.frameReady := rfl
@[simp] theorem rxFlush_handBuf (s : State) :
    (rxFlush s).handBuf = s.handBuf := rfl
@[simp] theorem rxFlush_lastRequest (s : State) :
    (rxFlush s).lastRequest = s.lastRequest := rfl
@[simp] theorem rxFlush_scanPeriodMs (s : State) :
    (rxFlush s).scanPeriodMs = s.scanPeriodMs := rfl
@[simp] theorem rxFlush_rawPublishEn (s : State) :
    (rxFlush s).rawPublishEn = s.rawPublishEn := rfl
@[simp] theorem rxFlush_rxFifo (s : State) :
    (rxFlush s).rxFifo = [] := rfl
@[simp] theorem rxFlush_refused (s : State) :
    (rxFlush s).refused = s.refused := rfl
@[simp] theorem rxFlush_trace (s : State) :
    (rxFlush s).trace = s.trace := rfl
@[simp] theorem rxFlush_cfg (s : State) :
    (rxFlush s).cfg = s.cfg := rfl
@[simp] theorem rxFlush_port (s : State) :
    (rxFlush s).port = s.port := rfl
@[simp] theorem rxFlush_result (s : State) :
    (rxFlush s).result = s.result := rfl
@[simp] theorem rxFlush_epoch (s : State) :
    (rxFlush s).epoch = s.epoch := rfl

/-! ### `frameWrite` -/

@[simp] theorem frameWrite_acqState (i : Nat) (b : Byte) (s : State) :
    (frameWrite i b s).acqState = s.acqState := rfl
@[simp] theorem frameWrite_byteCount (i : Nat) (b : Byte) (s : State) :
    (frameWrite i b s).byteCount = s.byteCount := rfl
@[simp] theorem frameWrite_frameBuf (i : Nat) (b : Byte) (s : State) :
    (frameWrite i b s).frameBuf = s.frameBuf.write i b := rfl
@[simp] theorem frameWrite_deadlineAnchor (i : Nat) (b : Byte) (s : State) :
    (frameWrite i b s).deadlineAnchor = s.deadlineAnchor := rfl
@[simp] theorem frameWrite_frameReady (i : Nat) (b : Byte) (s : State) :
    (frameWrite i b s).frameReady = s.frameReady := rfl
@[simp] theorem frameWrite_handBuf (i : Nat) (b : Byte) (s : State) :
    (frameWrite i b s).handBuf = s.handBuf := rfl
@[simp] theorem frameWrite_lastRequest (i : Nat) (b : Byte) (s : State) :
    (frameWrite i b s).lastRequest = s.lastRequest := rfl
@[simp] theorem frameWrite_scanPeriodMs (i : Nat) (b : Byte) (s : State) :
    (frameWrite i b s).scanPeriodMs = s.scanPeriodMs := rfl
@[simp] theorem frameWrite_rawPublishEn (i : Nat) (b : Byte) (s : State) :
    (frameWrite i b s).rawPublishEn = s.rawPublishEn := rfl
@[simp] theorem frameWrite_rxFifo (i : Nat) (b : Byte) (s : State) :
    (frameWrite i b s).rxFifo = s.rxFifo := rfl
@[simp] theorem frameWrite_refused (i : Nat) (b : Byte) (s : State) :
    (frameWrite i b s).refused = s.refused := rfl
@[simp] theorem frameWrite_trace (i : Nat) (b : Byte) (s : State) :
    (frameWrite i b s).trace = s.trace := rfl
@[simp] theorem frameWrite_cfg (i : Nat) (b : Byte) (s : State) :
    (frameWrite i b s).cfg = s.cfg := rfl
@[simp] theorem frameWrite_port (i : Nat) (b : Byte) (s : State) :
    (frameWrite i b s).port = s.port := rfl
@[simp] theorem frameWrite_result (i : Nat) (b : Byte) (s : State) :
    (frameWrite i b s).result = s.result := rfl
@[simp] theorem frameWrite_epoch (i : Nat) (b : Byte) (s : State) :
    (frameWrite i b s).epoch = s.epoch := rfl

/-! ### `setFrameReady` -/

@[simp] theorem setFrameReady_acqState (v : Bool) (s : State) :
    (setFrameReady v s).acqState = s.acqState := rfl
@[simp] theorem setFrameReady_byteCount (v : Bool) (s : State) :
    (setFrameReady v s).byteCount = s.byteCount := rfl
@[simp] theorem setFrameReady_frameBuf (v : Bool) (s : State) :
    (setFrameReady v s).frameBuf = s.frameBuf := rfl
@[simp] theorem setFrameReady_deadlineAnchor (v : Bool) (s : State) :
    (setFrameReady v s).deadlineAnchor = s.deadlineAnchor := rfl
@[simp] theorem setFrameReady_frameReady (v : Bool) (s : State) :
    (setFrameReady v s).frameReady = v := rfl
@[simp] theorem setFrameReady_handBuf (v : Bool) (s : State) :
    (setFrameReady v s).handBuf = s.handBuf := rfl
@[simp] theorem setFrameReady_lastRequest (v : Bool) (s : State) :
    (setFrameReady v s).lastRequest = s.lastRequest := rfl
@[simp] theorem setFrameReady_scanPeriodMs (v : Bool) (s : State) :
    (setFrameReady v s).scanPeriodMs = s.scanPeriodMs := rfl
@[simp] theorem setFrameReady_rawPublishEn (v : Bool) (s : State) :
    (setFrameReady v s).rawPublishEn = s.rawPublishEn := rfl
@[simp] theorem setFrameReady_rxFifo (v : Bool) (s : State) :
    (setFrameReady v s).rxFifo = s.rxFifo := rfl
@[simp] theorem setFrameReady_refused (v : Bool) (s : State) :
    (setFrameReady v s).refused = s.refused := rfl
@[simp] theorem setFrameReady_trace (v : Bool) (s : State) :
    (setFrameReady v s).trace = s.trace := rfl
@[simp] theorem setFrameReady_cfg (v : Bool) (s : State) :
    (setFrameReady v s).cfg = s.cfg := rfl
@[simp] theorem setFrameReady_port (v : Bool) (s : State) :
    (setFrameReady v s).port = s.port := rfl
@[simp] theorem setFrameReady_result (v : Bool) (s : State) :
    (setFrameReady v s).result = s.result := rfl
@[simp] theorem setFrameReady_epoch (v : Bool) (s : State) :
    (setFrameReady v s).epoch = s.epoch := rfl

/-! ### `setResult` -/

@[simp] theorem setResult_acqState (r : Result) (s : State) :
    (setResult r s).acqState = s.acqState := rfl
@[simp] theorem setResult_byteCount (r : Result) (s : State) :
    (setResult r s).byteCount = s.byteCount := rfl
@[simp] theorem setResult_frameBuf (r : Result) (s : State) :
    (setResult r s).frameBuf = s.frameBuf := rfl
@[simp] theorem setResult_deadlineAnchor (r : Result) (s : State) :
    (setResult r s).deadlineAnchor = s.deadlineAnchor := rfl
@[simp] theorem setResult_frameReady (r : Result) (s : State) :
    (setResult r s).frameReady = s.frameReady := rfl
@[simp] theorem setResult_handBuf (r : Result) (s : State) :
    (setResult r s).handBuf = s.handBuf := rfl
@[simp] theorem setResult_lastRequest (r : Result) (s : State) :
    (setResult r s).lastRequest = s.lastRequest := rfl
@[simp] theorem setResult_scanPeriodMs (r : Result) (s : State) :
    (setResult r s).scanPeriodMs = s.scanPeriodMs := rfl
@[simp] theorem setResult_rawPublishEn (r : Result) (s : State) :
    (setResult r s).rawPublishEn = s.rawPublishEn := rfl
@[simp] theorem setResult_rxFifo (r : Result) (s : State) :
    (setResult r s).rxFifo = s.rxFifo := rfl
@[simp] theorem setResult_refused (r : Result) (s : State) :
    (setResult r s).refused = s.refused := rfl
@[simp] theorem setResult_trace (r : Result) (s : State) :
    (setResult r s).trace = s.trace := rfl
@[simp] theorem setResult_cfg (r : Result) (s : State) :
    (setResult r s).cfg = s.cfg := rfl
@[simp] theorem setResult_port (r : Result) (s : State) :
    (setResult r s).port = s.port := rfl
@[simp] theorem setResult_result (r : Result) (s : State) :
    (setResult r s).result = r := rfl
@[simp] theorem setResult_epoch (r : Result) (s : State) :
    (setResult r s).epoch = s.epoch := rfl

/-! ### `resetBlock` -/

@[simp] theorem resetBlock_acqState (s : State) :
    (resetBlock s).acqState = .idle := rfl
@[simp] theorem resetBlock_byteCount (s : State) :
    (resetBlock s).byteCount = 0 := rfl
@[simp] theorem resetBlock_frameBuf (s : State) :
    (resetBlock s).frameBuf = [] := rfl
@[simp] theorem resetBlock_deadlineAnchor (s : State) :
    (resetBlock s).deadlineAnchor = 0 := rfl
@[simp] theorem resetBlock_frameReady (s : State) :
    (resetBlock s).frameReady = false := rfl
@[simp] theorem resetBlock_handBuf (s : State) :
    (resetBlock s).handBuf = [] := rfl
@[simp] theorem resetBlock_lastRequest (s : State) :
    (resetBlock s).lastRequest = 0 := rfl
@[simp] theorem resetBlock_scanPeriodMs (s : State) :
    (resetBlock s).scanPeriodMs = BitVec.ofNat 32 s.cfg.scanPeriodResetMs := rfl
@[simp] theorem resetBlock_rawPublishEn (s : State) :
    (resetBlock s).rawPublishEn = false := rfl
@[simp] theorem resetBlock_rxFifo (s : State) :
    (resetBlock s).rxFifo = [] := rfl
@[simp] theorem resetBlock_refused (s : State) :
    (resetBlock s).refused = s.refused := rfl
@[simp] theorem resetBlock_trace (s : State) :
    (resetBlock s).trace = s.trace := rfl
@[simp] theorem resetBlock_cfg (s : State) :
    (resetBlock s).cfg = s.cfg := rfl
@[simp] theorem resetBlock_port (s : State) :
    (resetBlock s).port = s.port := rfl
@[simp] theorem resetBlock_result (s : State) :
    (resetBlock s).result = s.result := rfl
@[simp] theorem resetBlock_epoch (s : State) :
    (resetBlock s).epoch = s.epoch + 1 := rfl

/-! ### `sendRequest` -/

@[simp] theorem sendRequest_acqState (s : State) :
    (sendRequest s).acqState = s.acqState := rfl
@[simp] theorem sendRequest_byteCount (s : State) :
    (sendRequest s).byteCount = s.byteCount := rfl
@[simp] theorem sendRequest_frameBuf (s : State) :
    (sendRequest s).frameBuf = s.frameBuf := rfl
@[simp] theorem sendRequest_deadlineAnchor (s : State) :
    (sendRequest s).deadlineAnchor = s.deadlineAnchor := rfl
@[simp] theorem sendRequest_frameReady (s : State) :
    (sendRequest s).frameReady = s.frameReady := rfl
@[simp] theorem sendRequest_handBuf (s : State) :
    (sendRequest s).handBuf = s.handBuf := rfl
@[simp] theorem sendRequest_lastRequest (s : State) :
    (sendRequest s).lastRequest = s.lastRequest := rfl
@[simp] theorem sendRequest_scanPeriodMs (s : State) :
    (sendRequest s).scanPeriodMs = s.scanPeriodMs := rfl
@[simp] theorem sendRequest_rawPublishEn (s : State) :
    (sendRequest s).rawPublishEn = s.rawPublishEn := rfl
@[simp] theorem sendRequest_rxFifo (s : State) :
    (sendRequest s).rxFifo = s.rxFifo := rfl
@[simp] theorem sendRequest_refused (s : State) :
    (sendRequest s).refused = s.refused := rfl
@[simp] theorem sendRequest_trace (s : State) :
    (sendRequest s).trace = s.trace ++ [.tx 0x53, .tx 0x3F, .tx 0x0D] := by
  simp [sendRequest]
@[simp] theorem sendRequest_cfg (s : State) :
    (sendRequest s).cfg = s.cfg := rfl
@[simp] theorem sendRequest_port (s : State) :
    (sendRequest s).port = s.port := rfl
@[simp] theorem sendRequest_result (s : State) :
    (sendRequest s).result = s.result := rfl
@[simp] theorem sendRequest_epoch (s : State) :
    (sendRequest s).epoch = s.epoch := rfl

/-! ### `echoByte` -/

@[simp] theorem echoByte_acqState (b : Byte) (s : State) :
    (echoByte b s).acqState = s.acqState := rfl
@[simp] theorem echoByte_byteCount (b : Byte) (s : State) :
    (echoByte b s).byteCount = s.byteCount := rfl
@[simp] theorem echoByte_frameBuf (b : Byte) (s : State) :
    (echoByte b s).frameBuf = s.frameBuf := rfl
@[simp] theorem echoByte_deadlineAnchor (b : Byte) (s : State) :
    (echoByte b s).deadlineAnchor = s.deadlineAnchor := rfl
@[simp] theorem echoByte_frameReady (b : Byte) (s : State) :
    (echoByte b s).frameReady = s.frameReady := rfl
@[simp] theorem echoByte_handBuf (b : Byte) (s : State) :
    (echoByte b s).handBuf = s.handBuf := rfl
@[simp] theorem echoByte_lastRequest (b : Byte) (s : State) :
    (echoByte b s).lastRequest = s.lastRequest := rfl
@[simp] theorem echoByte_scanPeriodMs (b : Byte) (s : State) :
    (echoByte b s).scanPeriodMs = s.scanPeriodMs := rfl
@[simp] theorem echoByte_rawPublishEn (b : Byte) (s : State) :
    (echoByte b s).rawPublishEn = s.rawPublishEn := rfl
@[simp] theorem echoByte_rxFifo (b : Byte) (s : State) :
    (echoByte b s).rxFifo = s.rxFifo := rfl
@[simp] theorem echoByte_refused (b : Byte) (s : State) :
    (echoByte b s).refused = s.refused := rfl
@[simp] theorem echoByte_trace (b : Byte) (s : State) :
    (echoByte b s).trace = s.trace ++ [.diag (hexDigit (b >>> 4)), .diag (hexDigit b)] := by
  simp [echoByte]
@[simp] theorem echoByte_cfg (b : Byte) (s : State) :
    (echoByte b s).cfg = s.cfg := rfl
@[simp] theorem echoByte_port (b : Byte) (s : State) :
    (echoByte b s).port = s.port := rfl
@[simp] theorem echoByte_result (b : Byte) (s : State) :
    (echoByte b s).result = s.result := rfl
@[simp] theorem echoByte_epoch (b : Byte) (s : State) :
    (echoByte b s).epoch = s.epoch := rfl

/-! ### `appendByte` -/

@[simp] theorem appendByte_acqState (b : Byte) (s : State) :
    (appendByte b s).acqState = s.acqState := rfl
@[simp] theorem appendByte_byteCount (b : Byte) (s : State) :
    (appendByte b s).byteCount = s.byteCount + 1 := rfl
@[simp] theorem appendByte_frameBuf (b : Byte) (s : State) :
    (appendByte b s).frameBuf = s.frameBuf.write s.byteCount b := rfl
@[simp] theorem appendByte_deadlineAnchor (b : Byte) (s : State) :
    (appendByte b s).deadlineAnchor = s.deadlineAnchor := rfl
@[simp] theorem appendByte_frameReady (b : Byte) (s : State) :
    (appendByte b s).frameReady = s.frameReady := rfl
@[simp] theorem appendByte_handBuf (b : Byte) (s : State) :
    (appendByte b s).handBuf = s.handBuf := rfl
@[simp] theorem appendByte_lastRequest (b : Byte) (s : State) :
    (appendByte b s).lastRequest = s.lastRequest := rfl
@[simp] theorem appendByte_scanPeriodMs (b : Byte) (s : State) :
    (appendByte b s).scanPeriodMs = s.scanPeriodMs := rfl
@[simp] theorem appendByte_rawPublishEn (b : Byte) (s : State) :
    (appendByte b s).rawPublishEn = s.rawPublishEn := rfl
@[simp] theorem appendByte_rxFifo (b : Byte) (s : State) :
    (appendByte b s).rxFifo = s.rxFifo := rfl
@[simp] theorem appendByte_refused (b : Byte) (s : State) :
    (appendByte b s).refused = s.refused := rfl
@[simp] theorem appendByte_trace (b : Byte) (s : State) :
    (appendByte b s).trace = s.trace ++ [.diag (hexDigit (b >>> 4)), .diag (hexDigit b)] := by
  simp [appendByte, echoByte]
@[simp] theorem appendByte_cfg (b : Byte) (s : State) :
    (appendByte b s).cfg = s.cfg := rfl
@[simp] theorem appendByte_port (b : Byte) (s : State) :
    (appendByte b s).port = s.port := rfl
@[simp] theorem appendByte_result (b : Byte) (s : State) :
    (appendByte b s).result = s.result := rfl
@[simp] theorem appendByte_epoch (b : Byte) (s : State) :
    (appendByte b s).epoch = s.epoch := rfl

/-! ### `rxAppend` -/

@[simp] theorem rxAppend_acqState (data : Byte) (s : State) :
    (rxAppend data s).acqState = s.acqState := by
  unfold rxAppend; split <;> rfl
@[simp] theorem rxAppend_byteCount (data : Byte) (s : State) :
    (rxAppend data s).byteCount = s.byteCount := by
  unfold rxAppend; split <;> rfl
@[simp] theorem rxAppend_frameBuf (data : Byte) (s : State) :
    (rxAppend data s).frameBuf = s.frameBuf := by
  unfold rxAppend; split <;> rfl
@[simp] theorem rxAppend_deadlineAnchor (data : Byte) (s : State) :
    (rxAppend data s).deadlineAnchor = s.deadlineAnchor := by
  unfold rxAppend; split <;> rfl
@[simp] theorem rxAppend_frameReady (data : Byte) (s : State) :
    (rxAppend data s).frameReady = s.frameReady := by
  unfold rxAppend; split <;> rfl
@[simp] theorem rxAppend_handBuf (data : Byte) (s : State) :
    (rxAppend data s).handBuf = s.handBuf := by
  unfold rxAppend; split <;> rfl
@[simp] theorem rxAppend_lastRequest (data : Byte) (s : State) :
    (rxAppend data s).lastRequest = s.lastRequest := by
  unfold rxAppend; split <;> rfl
@[simp] theorem rxAppend_scanPeriodMs (data : Byte) (s : State) :
    (rxAppend data s).scanPeriodMs = s.scanPeriodMs := by
  unfold rxAppend; split <;> rfl
@[simp] theorem rxAppend_rawPublishEn (data : Byte) (s : State) :
    (rxAppend data s).rawPublishEn = s.rawPublishEn := by
  unfold rxAppend; split <;> rfl
@[simp] theorem rxAppend_rxFifo (data : Byte) (s : State) :
    (rxAppend data s).rxFifo =
      if s.rxFifo.length < s.cfg.rxFifoDepth then s.rxFifo ++ [data] else s.rxFifo := by
  unfold rxAppend; split <;> rfl
@[simp] theorem rxAppend_refused (data : Byte) (s : State) :
    (rxAppend data s).refused = s.refused := by
  unfold rxAppend; split <;> rfl
@[simp] theorem rxAppend_trace (data : Byte) (s : State) :
    (rxAppend data s).trace = s.trace := by
  unfold rxAppend; split <;> rfl
@[simp] theorem rxAppend_cfg (data : Byte) (s : State) :
    (rxAppend data s).cfg = s.cfg := by
  unfold rxAppend; split <;> rfl
@[simp] theorem rxAppend_port (data : Byte) (s : State) :
    (rxAppend data s).port = s.port := by
  unfold rxAppend; split <;> rfl
@[simp] theorem rxAppend_result (data : Byte) (s : State) :
    (rxAppend data s).result = s.result := by
  unfold rxAppend; split <;> rfl
@[simp] theorem rxAppend_epoch (data : Byte) (s : State) :
    (rxAppend data s).epoch = s.epoch := by
  unfold rxAppend; split <;> rfl

end Sys2Proof.Machine
end

