-- ==== Sys2Proof/Laws/FrameAssembler.lean ====
section
/-! SUPPORT. What each operation of the Frame Assembler can do, said once. -/

namespace Sys2Proof.Machine

/-- `REQ_ISSUE` while a response is outstanding has no effect (41_frame_assembler.md R153). -/
theorem reqIssue_await (now : Clock) (s : State) (h : s.acqState = .await) : reqIssue now s = s := by
  simp [reqIssue, h]

/-- `REQ_ISSUE` in `IDLE` (41_frame_assembler.md R152). -/
theorem reqIssue_idle (now : Clock) (s : State) (h : s.acqState = .idle) :
    reqIssue now s =
      { s with
        rxFifo := []
        trace := s.trace ++ [.tx 0x53, .tx 0x3F, .tx 0x0D]
        deadlineAnchor := now
        lastRequest := now
        byteCount := 0
        acqState := .await } := by
  simp [reqIssue, h, sendRequest, txPut, emit, rxFlush]

/-- The state `FRAME_COMPLETE` leaves (41_frame_assembler.md R157). -/
theorem frameComplete_full (s : State) (h : s.byteCount = 32) :
    frameComplete s = .ok { s with handBuf := s.frameBuf, acqState := .idle, frameReady := true } := by
  simp [frameComplete, frameLen, h, setFrameReady]

/-- `FRAME_COMPLETE` outside its precondition (log 8). -/
theorem frameComplete_not_full (s : State) (h : s.byteCount ≠ 32) :
    frameComplete s = .error .frameCompletePrecondition := by
  simp [frameComplete, frameLen, h]

/-- `RX_ACCEPT` of a byte before the 32nd (41_frame_assembler.md R156). -/
theorem rxAccept_append (b : Byte) (s : State) (ha : s.acqState = .await) (hc : s.byteCount < 31) :
    rxAccept b s = .ok (appendByte b s) := by
  have h1 : s.byteCount ≤ 31 := by omega
  have h2 : s.byteCount + 1 ≠ 32 := by omega
  simp [rxAccept, frameLen, ha, h1, h2]

/-- `RX_ACCEPT` of the 32nd byte completes the frame (41_frame_assembler.md R156, R157). -/
theorem rxAccept_last (b : Byte) (s : State) (ha : s.acqState = .await) (hc : s.byteCount = 31) :
    rxAccept b s =
      .ok { appendByte b s with
            handBuf := s.frameBuf.write 31 b, acqState := .idle, frameReady := true } := by
  have h1 : (appendByte b s).byteCount = 32 := by simp [hc]
  have h2 : s.byteCount ≤ 31 := by omega
  simp only [rxAccept, frameLen, ha, h2, and_self, if_true, h1]
  rw [frameComplete_full _ h1]
  simp [hc]

/-- `RX_ACCEPT` outside its precondition (log 8). -/
theorem rxAccept_outside (b : Byte) (s : State) (h : ¬(s.acqState = .await ∧ s.byteCount ≤ 31)) :
    rxAccept b s = .error .rxAcceptPrecondition := by
  simp only [rxAccept, h, if_false]

/-- What `DRAIN` leaves: `t` is `s` after accepting the first `k` bytes of `rx_fifo`. -/
structure Drained (s : State) (k : Nat) (t : State) : Prop where
  fifo : t.rxFifo = s.rxFifo.drop k
  count : t.byteCount = s.byteCount + k
  trace : t.trace = s.trace ++ echoEvents (s.rxFifo.take k)
  accepted : ∀ j, j < k → t.frameBuf.read (s.byteCount + j) = s.rxFifo[j]?
  kept : ∀ i, (i < s.byteCount ∨ s.byteCount + k ≤ i) → t.frameBuf.read i = s.frameBuf.read i
  frame_wf : Memory.wf s.frameBuf → Memory.wf t.frameBuf
  partial_frame : ¬(s.acqState = .await ∧ s.byteCount + k = 32) →
    t.acqState = s.acqState ∧ t.frameReady = s.frameReady ∧ t.handBuf = s.handBuf
  whole_frame : s.acqState = .await ∧ s.byteCount + k = 32 →
    t.acqState = .idle ∧ t.frameReady = true ∧ t.handBuf = t.frameBuf
  deadlineAnchor : t.deadlineAnchor = s.deadlineAnchor
  lastRequest : t.lastRequest = s.lastRequest
  scanPeriodMs : t.scanPeriodMs = s.scanPeriodMs
  rawPublishEn : t.rawPublishEn = s.rawPublishEn
  refused : t.refused = s.refused
  cfg : t.cfg = s.cfg
  port : t.port = s.port
  result : t.result = s.result
  epoch : t.epoch = s.epoch

/-- Accepting nothing leaves the state as it is. -/
theorem Drained.refl (s : State) (h : s.acqState = .await → s.byteCount ≤ 31) : Drained s 0 s where
  fifo := by simp
  count := by simp
  trace := by simp [echoEvents]
  accepted := fun _ hj => absurd hj (Nat.not_lt_zero _)
  kept := fun _ _ => rfl
  frame_wf := id
  partial_frame := fun _ => ⟨rfl, rfl, rfl⟩
  whole_frame := fun hw => by have := h hw.1; omega
  deadlineAnchor := rfl
  lastRequest := rfl
  scanPeriodMs := rfl
  rawPublishEn := rfl
  refused := rfl
  cfg := rfl
  port := rfl
  result := rfl
  epoch := rfl

/-- In `IDLE` the loop of `DRAIN` pops nothing (41_frame_assembler.md R155). -/
theorem drainLoop_idle (n : Nat) (s : State) (h : s.acqState = .idle) : drainLoop n s = .ok s := by
  cases n <;> simp [drainLoop, h]

/-- One turn of the loop of `DRAIN` (41_frame_assembler.md R154). -/
theorem drainLoop_turn (n : Nat) (s popped : State) (b : Byte) (ha : s.acqState = .await)
    (hpop : rxPop s = some (b, popped)) :
    drainLoop (n + 1) s =
      match rxAccept b popped with
      | .ok t => drainLoop n t
      | .error f => .error f := by
  simp only [drainLoop, ha, hpop] <;> rfl

/-- The loop of `DRAIN`, given turns enough for every buffered byte. -/
theorem drainLoop_spec (n : Nat) : ∀ s : State, s.rxFifo.length ≤ n →
    (s.acqState = .await → s.byteCount ≤ 31) →
    ∃ t, drainLoop n s = .ok t ∧ Drained s (drainCount s) t := by
  induction n with
  | zero =>
    intro s hn hc
    have hnil : s.rxFifo = [] := List.eq_nil_of_length_eq_zero (Nat.le_zero.1 hn)
    have hk : drainCount s = 0 := by unfold drainCount; split <;> simp [hnil]
    exact ⟨s, rfl, hk ▸ Drained.refl s hc⟩
  | succ n ih =>
    intro s hn hc
    cases ha : s.acqState with
    | idle =>
      have hk : drainCount s = 0 := by simp [drainCount, ha]
      exact ⟨s, drainLoop_idle _ _ ha, hk ▸ Drained.refl s hc⟩
    | await =>
      cases hf : s.rxFifo with
      | nil =>
        have hk : drainCount s = 0 := by simp [drainCount, ha, hf]
        exact ⟨s, by simp [drainLoop, ha, rxPop, hf], hk ▸ Drained.refl s hc⟩
      | cons b rest =>
        have hle := hc ha
        have hpop : rxPop s = some (b, { s with rxFifo := rest }) := by simp [rxPop, hf]
        by_cases h31 : s.byteCount = 31
        · have hk : drainCount s = 1 := by
            simp only [drainCount, ha, hf, h31, List.length_cons]; omega
          refine ⟨_, by
            rw [drainLoop_turn n s _ b ha hpop, rxAccept_last b { s with rxFifo := rest } ha h31]
            exact drainLoop_idle _ _ rfl, ?_⟩
          rw [hk]
          constructor <;> simp [hf, h31, ha, echoEvents]
          · intro i hi
            exact Memory.read_write_other _ _ (by omega)
          · intro h1 h2
            have := Memory.write_wf s.frameBuf 31 b ⟨h1, fun cell hc => h2 cell.1 cell.2 hc⟩ (by decide)
            simpa [Memory.wf] using this
        · have hlt : s.byteCount < 31 := by omega
          obtain ⟨t, ht, hd⟩ := ih (appendByte b { s with rxFifo := rest })
            (by simp [hf] at hn ⊢; exact hn) (by intro _; simp; omega)
          have hk : drainCount s = drainCount (appendByte b { s with rxFifo := rest }) + 1 := by
            simp only [drainCount, appendByte_acqState, ha, hf, appendByte_rxFifo,
              appendByte_byteCount, List.length_cons]
            omega
          refine ⟨t, by
            rw [drainLoop_turn n s _ b ha hpop, rxAccept_append b { s with rxFifo := rest } ha hlt]
            exact ht, ?_⟩
          rw [hk]
          generalize drainCount (appendByte b { s with rxFifo := rest }) = k at hd
          constructor
          · simpa [hf] using hd.fifo
          · have := hd.count; simp at this; omega
          · simpa [hf, echoEvents] using hd.trace
          · intro j hj
            cases j with
            | zero =>
              have := hd.kept s.byteCount (by left; simp)
              simpa [hf] using this
            | succ j =>
              have := hd.accepted j (by omega)
              rw [hf]
              simp only [appendByte_byteCount, appendByte_rxFifo] at this
              rw [List.getElem?_cons_succ, ← this]
              congr 1
              omega
          · intro i hi
            have := hd.kept i (by simp; omega)
            rw [this]
            simp only [appendByte_frameBuf]
            exact Memory.read_write_other _ _ (by omega)
          · intro hw
            exact hd.frame_wf (by
              simp only [appendByte_frameBuf]
              exact Memory.write_wf _ _ _ hw (by omega))
          · intro hp
            have := hd.partial_frame (by simp [ha]; simp [ha] at hp; omega)
            simpa using this
          · intro hw
            exact hd.whole_frame (by simp [ha]; omega)
          · simpa using hd.deadlineAnchor
          · simpa using hd.lastRequest
          · simpa using hd.scanPeriodMs
          · simpa using hd.rawPublishEn
          · simpa using hd.refused
          · simpa using hd.cfg
          · simpa using hd.port
          · simpa using hd.result
          · simpa using hd.epoch

/-- `DRAIN` (41_frame_assembler.md R154): it answers in every state that meets the bound of R32. -/
theorem drain_spec (s : State) (h : s.acqState = .await → s.byteCount ≤ 31) :
    ∃ t, drain s = .ok t ∧ Drained s (drainCount s) t :=
  drainLoop_spec _ s le_rfl h

/-- `DRAIN` faults only through `RX_ACCEPT`'s precondition. -/
theorem drain_outside (s : State) (ha : s.acqState = .await) (hc : 31 < s.byteCount)
    (hf : s.rxFifo ≠ []) : drain s = .error .rxAcceptPrecondition := by
  obtain ⟨b, rest, hcons⟩ := List.exists_cons_of_ne_nil hf
  have hpop : rxPop s = some (b, { s with rxFifo := rest }) := by simp [rxPop, hcons]
  rw [drain, hcons, List.length_cons, drainLoop_turn _ s _ b ha hpop,
    rxAccept_outside b { s with rxFifo := rest } (by simp; intro; omega)]

/-- Every answer of `DRAIN`: the bytes accepted, or, in a state no run reaches, nothing to do. -/
theorem drain_ok_cases {s t : State} (h : drain s = .ok t) :
    Drained s (drainCount s) t ∨
      (s.acqState = .await ∧ 31 < s.byteCount ∧ s.rxFifo = [] ∧ t = s) := by
  by_cases hc : s.acqState = .await → s.byteCount ≤ 31
  · obtain ⟨u, hu, hd⟩ := drain_spec s hc
    rw [h] at hu
    cases hu
    exact .inl hd
  · obtain ⟨ha, hle⟩ := Classical.not_imp.1 hc
    have hlt : 31 < s.byteCount := Nat.lt_of_not_le hle
    by_cases hf : s.rxFifo = []
    · have : drain s = .ok s := by simp [drain, hf, drainLoop]
      rw [h] at this
      cases this
      exact .inr ⟨ha, hlt, hf, rfl⟩
    · rw [drain_outside s ha hlt hf] at h
      cases h

/-- `TIMEOUT_CHECK` when the deadline has passed (41_frame_assembler.md R159). -/
theorem timeoutCheck_due (now : Clock) (s : State) (ha : s.acqState = .await)
    (hd : 3000 ≤ delta s.cfg now s.deadlineAnchor) :
    timeoutCheck now s =
      { s with
        byteCount := 0
        acqState := .idle
        frameReady := false
        trace := s.trace ++ [.err .timeout (BitVec.ofNat 32 s.byteCount)] } := by
  simp [timeoutCheck, timedOut, timeoutMs, ha, hd, raise, emit, setFrameReady]

/-- `TIMEOUT_CHECK` otherwise (41_frame_assembler.md R159). -/
theorem timeoutCheck_not_due (now : Clock) (s : State)
    (h : ¬(s.acqState = .await ∧ 3000 ≤ delta s.cfg now s.deadlineAnchor)) :
    timeoutCheck now s = s := by
  have : ¬timedOut now s = true := by
    rw [timedOut, Bool.and_eq_true, decide_eq_true_eq, decide_eq_true_eq]
    exact h
  simp [timeoutCheck, this]

end Sys2Proof.Machine
end

