-- ==== Sys2Proof/Laws/PollScheduler.lean ====
section
/-! SUPPORT. What each operation of the Poll Scheduler and of the control loop can do, said once. -/

namespace Sys2Proof.Machine

/-- `SCHED_CHECK` when a request is due (43_poll_scheduler.md R213). -/
theorem schedCheck_due (now : Clock) (s : State) (ha : s.acqState = .idle)
    (hd : s.scanPeriodMs.toNat ≤ delta s.cfg now s.lastRequest) :
    schedCheck now s = reqIssue now s := by
  simp [schedCheck, requestDue, ha, hd]

/-- `SCHED_CHECK` otherwise (43_poll_scheduler.md R213, R214). -/
theorem schedCheck_not_due (now : Clock) (s : State)
    (h : ¬(s.acqState = .idle ∧ s.scanPeriodMs.toNat ≤ delta s.cfg now s.lastRequest)) :
    schedCheck now s = s := by
  have : ¬requestDue now s = true := by
    rw [requestDue, Bool.and_eq_true, decide_eq_true_eq, decide_eq_true_eq]
    exact h
  simp [schedCheck, this]

/-- The output events of a completed frame (43_poll_scheduler.md R217). -/
def publishedEvents (s : State) : List OutEvent :=
  .snap (snapshotOf s) :: (if s.rawPublishEn then [.raw (snapshotOf s).rawHex] else [])

/-- `DECODE_PUBLISH` of a completed frame (43_poll_scheduler.md R217). -/
theorem decodePublish_ready (s : State) (h : s.frameReady = true) :
    decodePublish s = { s with frameReady := false, trace := s.trace ++ publishedEvents s } := by
  unfold decodePublish publishFrame publishedEvents
  rw [if_pos h]
  split <;> simp_all [emit, setFrameReady]

/-- `DECODE_PUBLISH` without a completed frame (43_poll_scheduler.md R217). -/
theorem decodePublish_not_ready (s : State) (h : s.frameReady = false) : decodePublish s = s := by
  simp [decodePublish, h]

/-- An iteration with the transport not ready (43_poll_scheduler.md R212). -/
theorem iterate_not_ready (now : Clock) (s : State) :
    iterate false now s = .ok { s with trace := s.trace ++ [.err .hardwareUnavailable 0] } := rfl

/-- An iteration with the transport ready is its four stages in order (43_poll_scheduler.md R210). -/
theorem iterate_ready (now : Clock) (s drained : State) (h : drain s = .ok drained) :
    iterate true now s = .ok (decodePublish (schedCheck now (timeoutCheck now drained))) := by
  simp [iterate, h]

/-- An accepted scan period (43_poll_scheduler.md R224). -/
theorem setScanPeriod_accepted (w : BitVec 32) (s : State)
    (h : 2 ≤ w.toInt ∧ w.toInt ≤ (scanSMax s.cfg : Int)) :
    setScanPeriod w s = { s with scanPeriodMs := BitVec.ofInt 32 (w.toInt * 1000) } := by
  simp [setScanPeriod, secondsOf, h]

/-- A rejected scan period (43_poll_scheduler.md R224, 60_exceptions.md R242). -/
theorem setScanPeriod_rejected (w : BitVec 32) (s : State)
    (h : ¬(2 ≤ w.toInt ∧ w.toInt ≤ (scanSMax s.cfg : Int))) :
    setScanPeriod w s = { s with trace := s.trace ++ [.err .malformedCommand w] } := by
  simp only [setScanPeriod, secondsOf, h, if_false, raise, emit]

/-- The three cases of the raw-publishing setter (43_poll_scheduler.md R226). -/
theorem setRawPublish_cases (w : BitVec 32) (s : State) :
    (w = 0 ∧ setRawPublish w s = { s with rawPublishEn := false }) ∨
    (w = 1 ∧ setRawPublish w s = { s with rawPublishEn := true }) ∨
    (2 ≤ w.toNat ∧
      setRawPublish w s = { s with trace := s.trace ++ [.err .malformedCommand w] }) := by
  unfold setRawPublish valueOf
  split
  · next h => exact .inl ⟨BitVec.eq_of_toNat_eq (by simpa using h), rfl⟩
  · split
    · next h => exact .inr (.inl ⟨BitVec.eq_of_toNat_eq (by simpa using h), rfl⟩)
    · exact .inr (.inr ⟨by omega, rfl⟩)

end Sys2Proof.Machine
end

