-- ==== Sys2Proof/Laws/Exec.lean ====
section
/-! SUPPORT. The cases of each operation that can answer a next state, said once for proofs that go over
all instructions. -/

namespace Sys2Proof.Machine

/-- The two cases of `RX_ARRIVE` (41_frame_assembler.md R151). -/
theorem rxAppend_cases (data : Byte) (s : State) :
    (s.rxFifo.length < s.cfg.rxFifoDepth ∧
      rxAppend data s = { s with rxFifo := s.rxFifo ++ [data] }) ∨
    (s.cfg.rxFifoDepth ≤ s.rxFifo.length ∧ rxAppend data s = s) := by
  unfold rxAppend
  split
  · next h => exact .inl ⟨h, rfl⟩
  · next h => exact .inr ⟨Nat.le_of_not_lt h, rfl⟩

/-- The two cases of `REQ_ISSUE` (41_frame_assembler.md R152, R153). -/
theorem reqIssue_cases (now : Clock) (s : State) :
    (s.acqState = .idle ∧ reqIssue now s =
      { s with
        rxFifo := []
        trace := s.trace ++ requestEvents
        deadlineAnchor := now
        lastRequest := now
        byteCount := 0
        acqState := .await }) ∨
    (s.acqState = .await ∧ reqIssue now s = s) := by
  cases h : s.acqState
  · exact .inl ⟨rfl, by simpa [requestEvents] using reqIssue_idle now s h⟩
  · exact .inr ⟨rfl, reqIssue_await now s h⟩

/-- The two cases of `TIMEOUT_CHECK` (41_frame_assembler.md R159). -/
theorem timeoutCheck_cases (now : Clock) (s : State) :
    ((s.acqState = .await ∧ 3000 ≤ delta s.cfg now s.deadlineAnchor) ∧ timeoutCheck now s =
      { s with
        byteCount := 0
        acqState := .idle
        frameReady := false
        trace := s.trace ++ [.err .timeout (BitVec.ofNat 32 s.byteCount)] }) ∨
    (¬(s.acqState = .await ∧ 3000 ≤ delta s.cfg now s.deadlineAnchor) ∧ timeoutCheck now s = s) := by
  by_cases h : s.acqState = .await ∧ 3000 ≤ delta s.cfg now s.deadlineAnchor
  · exact .inl ⟨h, timeoutCheck_due now s h.1 h.2⟩
  · exact .inr ⟨h, timeoutCheck_not_due now s h⟩

/-- The two cases of `SCHED_CHECK` (43_poll_scheduler.md R213). -/
theorem schedCheck_cases (now : Clock) (s : State) :
    ((s.acqState = .idle ∧ s.scanPeriodMs.toNat ≤ delta s.cfg now s.lastRequest) ∧
      schedCheck now s =
      { s with
        rxFifo := []
        trace := s.trace ++ requestEvents
        deadlineAnchor := now
        lastRequest := now
        byteCount := 0
        acqState := .await }) ∨
    (¬(s.acqState = .idle ∧ s.scanPeriodMs.toNat ≤ delta s.cfg now s.lastRequest) ∧
      schedCheck now s = s) := by
  by_cases h : s.acqState = .idle ∧ s.scanPeriodMs.toNat ≤ delta s.cfg now s.lastRequest
  · refine .inl ⟨h, ?_⟩
    rw [schedCheck_due now s h.1 h.2]
    simpa [requestEvents] using reqIssue_idle now s h.1
  · exact .inr ⟨h, schedCheck_not_due now s h⟩

/-- The two cases of `DECODE_PUBLISH` (43_poll_scheduler.md R217). -/
theorem decodePublish_cases (s : State) :
    (s.frameReady = true ∧
      decodePublish s = { s with frameReady := false, trace := s.trace ++ publishedEvents s }) ∨
    (s.frameReady = false ∧ decodePublish s = s) := by
  cases h : s.frameReady
  · exact .inr ⟨rfl, decodePublish_not_ready s h⟩
  · exact .inl ⟨rfl, decodePublish_ready s h⟩

/-- The two cases of the scan-period setter (43_poll_scheduler.md R224). -/
theorem setScanPeriod_cases (w : BitVec 32) (s : State) :
    ((2 ≤ w.toInt ∧ w.toInt ≤ (scanSMax s.cfg : Int)) ∧
      setScanPeriod w s = { s with scanPeriodMs := BitVec.ofInt 32 (w.toInt * 1000) }) ∨
    (¬(2 ≤ w.toInt ∧ w.toInt ≤ (scanSMax s.cfg : Int)) ∧
      setScanPeriod w s = { s with trace := s.trace ++ [.err .malformedCommand w] }) := by
  by_cases h : 2 ≤ w.toInt ∧ w.toInt ≤ (scanSMax s.cfg : Int)
  · exact .inl ⟨h, setScanPeriod_accepted w s h⟩
  · exact .inr ⟨h, setScanPeriod_rejected w s h⟩

/-- Where `RX_ACCEPT` answers a next state, and which (41_frame_assembler.md R156). -/
theorem rxAccept_ok_cases {b : Byte} {s t : State} (h : rxAccept b s = .ok t) :
    s.acqState = .await ∧
    ((s.byteCount < 31 ∧ t = appendByte b s) ∨
      (s.byteCount = 31 ∧ t =
        { appendByte b s with
          handBuf := s.frameBuf.write 31 b, acqState := .idle, frameReady := true })) := by
  by_cases hp : s.acqState = .await ∧ s.byteCount ≤ 31
  · refine ⟨hp.1, ?_⟩
    rcases Nat.lt_or_ge s.byteCount 31 with hlt | hge
    · rw [rxAccept_append b s hp.1 hlt] at h
      cases h
      exact .inl ⟨hlt, rfl⟩
    · have heq : s.byteCount = 31 := le_antisymm hp.2 hge
      rw [rxAccept_last b s hp.1 heq] at h
      cases h
      exact .inr ⟨heq, rfl⟩
  · rw [rxAccept_outside b s hp] at h
    cases h

/-- Where `FRAME_COMPLETE` answers a next state, and which (41_frame_assembler.md R157). -/
theorem frameComplete_ok_cases {s t : State} (h : frameComplete s = .ok t) :
    s.byteCount = 32 ∧
      t = { s with handBuf := s.frameBuf, acqState := .idle, frameReady := true } := by
  by_cases hc : s.byteCount = 32
  · rw [frameComplete_full s hc] at h
    cases h
    exact ⟨hc, rfl⟩
  · rw [frameComplete_not_full s hc] at h
    cases h

/-- Where an iteration answers a next state, and which (43_poll_scheduler.md R210, R212). -/
theorem iterate_ok_cases {ready : Bool} {now : Clock} {s t : State}
    (h : iterate ready now s = .ok t) :
    (ready = false ∧ t = { s with trace := s.trace ++ [.err .hardwareUnavailable 0] }) ∨
    (ready = true ∧ ∃ drained, drain s = .ok drained ∧
      t = decodePublish (schedCheck now (timeoutCheck now drained))) := by
  cases ready with
  | false => cases h; exact .inl ⟨rfl, rfl⟩
  | true =>
    cases hd : drain s with
    | error f => simp [iterate, hd] at h
    | ok drained =>
      rw [iterate_ready now s drained hd] at h
      cases h
      exact .inr ⟨rfl, drained, rfl, rfl⟩

/-- An operation that can fault answers a next state where it returns one. -/
theorem outcomeOf_next {r : Except Fault State} {t : State} (h : outcomeOf r = .next t) :
    r = .ok t := by
  cases r with
  | ok u => cases h; rfl
  | error f => cases h

end Sys2Proof.Machine
end

