-- ==== Sys2Proof/Laws/PerInstr.lean ====
section
/-! SUPPORT. One lemma per constructor of `Instr` about its encoding: an encoded word matches its row of
spec/opcode_table.json (its bits under the row's mask are the row's match). -/

namespace Sys2Proof.Laws.TableMatch

/-- Mask and match of an instruction's row, as spec/opcode_table.json gives them. -/
def row : Instr → Nat × Nat
  | .iter _ _ => (0xFFFFFFFE00000000, 0x1000000000000000)
  | .rxArrive _ => (0xFFFFFFFFFFFFFF00, 0x2000000000000000)
  | .cfgScanPeriod _ => (0xFFFFFFFF00000000, 0x3000000000000000)
  | .cfgRawPublish _ => (0xFFFFFFFF00000000, 0x4000000000000000)
  | .reset => (0xFFFFFFFFFFFFFFFF, 0xF000000000000000)
  | .drain => (0xFF, 0x01)
  | .rxAccept _ => (0xFF, 0x02)
  | .frameComplete => (0xFF, 0x03)
  | .timeoutCheck _ => (0xFF, 0x04)
  | .reqIssue _ => (0xFF, 0x05)
  | .schedCheck _ => (0xFF, 0x06)
  | .decodePublish => (0xFF, 0x07)
  | .fxpDecode _ _ => (0xFF, 0x10)
  | .fxpScale _ _ => (0xFF, 0x11)
  | .flagTest _ _ => (0xFF, 0x12)
  | .hexDigit _ => (0xFF, 0x13)
  | .decodeFrame => (0xFF, 0x20)
  | .pressureSelect _ _ => (0xFF, 0x21)
  | .faultFlag _ => (0xFF, 0x22)
  | .statusExtend _ _ _ => (0xFF, 0x23)
  | .descLookup _ => (0xFF, 0x24)
  | .hexEcho => (0xFF, 0x25)

/-- The encoded word of `i`, under the mask of its row, is the row's match; an event row's word is an event
word, a micro-operation row's a micro-operation word. -/
def Statement (i : Instr) : Prop :=
  match encode i with
  | .event w => i.isEvent = true ∧ w &&& BitVec.ofNat 64 (row i).1 = BitVec.ofNat 64 (row i).2
  | .micro u => i.isEvent = false ∧ u &&& BitVec.ofNat 40 (row i).1 = BitVec.ofNat 40 (row i).2

theorem iter (ready : Bool) (now : Clock) : Statement (.iter ready now) := by
  refine ⟨rfl, BitVec.eq_of_getLsbD_eq fun i hi => ?_⟩
  simp only [row, BitVec.getLsbD_and, BitVec.getLsbD_or, fieldAt_getLsbD]
  interval_cases i <;> simp

theorem rxArrive (data : Byte) : Statement (.rxArrive data) := by
  refine ⟨rfl, BitVec.eq_of_getLsbD_eq fun i hi => ?_⟩
  simp only [row, BitVec.getLsbD_and, BitVec.getLsbD_or, fieldAt_getLsbD]
  interval_cases i <;> simp

theorem cfgScanPeriod (seconds : BitVec 32) : Statement (.cfgScanPeriod seconds) := by
  refine ⟨rfl, BitVec.eq_of_getLsbD_eq fun i hi => ?_⟩
  simp only [row, BitVec.getLsbD_and, BitVec.getLsbD_or, fieldAt_getLsbD]
  interval_cases i <;> simp

theorem cfgRawPublish (value : BitVec 32) : Statement (.cfgRawPublish value) := by
  refine ⟨rfl, BitVec.eq_of_getLsbD_eq fun i hi => ?_⟩
  simp only [row, BitVec.getLsbD_and, BitVec.getLsbD_or, fieldAt_getLsbD]
  interval_cases i <;> simp

theorem reset : Statement .reset := by
  exact ⟨rfl, by decide⟩

theorem drain : Statement .drain := by
  exact ⟨rfl, by decide⟩

theorem rxAccept (b : Byte) : Statement (.rxAccept b) := by
  refine ⟨rfl, BitVec.eq_of_getLsbD_eq fun i hi => ?_⟩
  simp only [row, BitVec.getLsbD_and, BitVec.getLsbD_or, fieldAt_getLsbD]
  interval_cases i <;> simp

theorem frameComplete : Statement .frameComplete := by
  exact ⟨rfl, by decide⟩

theorem timeoutCheck (now : Clock) : Statement (.timeoutCheck now) := by
  refine ⟨rfl, BitVec.eq_of_getLsbD_eq fun i hi => ?_⟩
  simp only [row, BitVec.getLsbD_and, BitVec.getLsbD_or, fieldAt_getLsbD]
  interval_cases i <;> simp

theorem reqIssue (now : Clock) : Statement (.reqIssue now) := by
  refine ⟨rfl, BitVec.eq_of_getLsbD_eq fun i hi => ?_⟩
  simp only [row, BitVec.getLsbD_and, BitVec.getLsbD_or, fieldAt_getLsbD]
  interval_cases i <;> simp

theorem schedCheck (now : Clock) : Statement (.schedCheck now) := by
  refine ⟨rfl, BitVec.eq_of_getLsbD_eq fun i hi => ?_⟩
  simp only [row, BitVec.getLsbD_and, BitVec.getLsbD_or, fieldAt_getLsbD]
  interval_cases i <;> simp

theorem decodePublish : Statement .decodePublish := by
  exact ⟨rfl, by decide⟩

theorem fxpDecode (msb : Byte) (lsb : Byte) : Statement (.fxpDecode msb lsb) := by
  refine ⟨rfl, BitVec.eq_of_getLsbD_eq fun i hi => ?_⟩
  simp only [row, BitVec.getLsbD_and, BitVec.getLsbD_or, fieldAt_getLsbD]
  interval_cases i <;> simp

theorem fxpScale (raw : BitVec 16) (factor : ScaleFactor) : Statement (.fxpScale raw factor) := by
  refine ⟨rfl, BitVec.eq_of_getLsbD_eq fun i hi => ?_⟩
  simp only [row, BitVec.getLsbD_and, BitVec.getLsbD_or, fieldAt_getLsbD]
  interval_cases i <;> simp

theorem flagTest (byte : Byte) (mask : Byte) : Statement (.flagTest byte mask) := by
  refine ⟨rfl, BitVec.eq_of_getLsbD_eq fun i hi => ?_⟩
  simp only [row, BitVec.getLsbD_and, BitVec.getLsbD_or, fieldAt_getLsbD]
  interval_cases i <;> simp

theorem hexDigit (n : Byte) : Statement (.hexDigit n) := by
  refine ⟨rfl, BitVec.eq_of_getLsbD_eq fun i hi => ?_⟩
  simp only [row, BitVec.getLsbD_and, BitVec.getLsbD_or, fieldAt_getLsbD]
  interval_cases i <;> simp

theorem decodeFrame : Statement .decodeFrame := by
  exact ⟨rfl, by decide⟩

theorem pressureSelect (p : BitVec 16) (hp : Bool) : Statement (.pressureSelect p hp) := by
  refine ⟨rfl, BitVec.eq_of_getLsbD_eq fun i hi => ?_⟩
  simp only [row, BitVec.getLsbD_and, BitVec.getLsbD_or, fieldAt_getLsbD]
  interval_cases i <;> simp

theorem faultFlag (b27 : Byte) : Statement (.faultFlag b27) := by
  refine ⟨rfl, BitVec.eq_of_getLsbD_eq fun i hi => ?_⟩
  simp only [row, BitVec.getLsbD_and, BitVec.getLsbD_or, fieldAt_getLsbD]
  interval_cases i <;> simp

theorem statusExtend (r : Byte) (f : Byte) (fault : Bool) : Statement (.statusExtend r f fault) := by
  refine ⟨rfl, BitVec.eq_of_getLsbD_eq fun i hi => ?_⟩
  simp only [row, BitVec.getLsbD_and, BitVec.getLsbD_or, fieldAt_getLsbD]
  interval_cases i <;> simp

theorem descLookup (c : BitVec 9) : Statement (.descLookup c) := by
  refine ⟨rfl, BitVec.eq_of_getLsbD_eq fun i hi => ?_⟩
  simp only [row, BitVec.getLsbD_and, BitVec.getLsbD_or, fieldAt_getLsbD]
  interval_cases i <;> simp

theorem hexEcho : Statement .hexEcho := by
  exact ⟨rfl, by decide⟩

end Sys2Proof.Laws.TableMatch
end

