-- ==== Sys2Proof/Tests/Slice0.lean ====
section
/-! SUPPORT. The model's own tests: ill-formed terms, words written out from 30_encoding.md, the vectors of
95_test_vectors.md section 2, and a witness for the hypotheses of every statement. Expected values come from
the spec. -/

open Sys2Proof Sys2Proof.Machine

namespace Sys2Proof.Tests

/-! ### Helpers -/

/-- Whether an outcome is a next state that meets a test. -/
def nextMeets (o : Host.Outcome State Fault Refusal) (test : State → Bool) : Bool :=
  match o with
  | .next s => test s
  | .fault _ => false
  | .refused _ => false

/-- Parameters with the smallest clock of 00_scope.md R10. -/
def clock14 : Config := { Config.vectors with clkW := 14 }

/-- A buffer of `n` zero bytes. -/
def zeros (n : Nat) : Memory := (List.range n).map fun i => (i, 0x00#8)

/-- A buffer that holds the given bytes from offset 0 on. -/
def bufferOf (bytes : List Byte) : Memory := (List.range bytes.length).zip bytes

/-- `AWAIT` with `n` zero bytes accepted since a request at 5000, and the given bytes buffered. -/
def awaiting (n : Nat) (fifo : List Byte) : State :=
  { State.reset with
    acqState := .await, byteCount := n, frameBuf := zeros n, rxFifo := fifo,
    deadlineAnchor := 5000, lastRequest := 5000 }

/-- `IDLE` since a request at 5000. -/
def idling : State := { State.reset with deadlineAnchor := 5000, lastRequest := 5000 }

/-- A completed frame, not yet published. -/
def handed (bytes : List Byte) (raw : Bool) : State :=
  { idling with
    byteCount := 32, frameBuf := bufferOf bytes, handBuf := bufferOf bytes, frameReady := true,
    rawPublishEn := raw }

/-- The source's literal reading of byte 27. -/
def sourceLiteral (s : State) : State :=
  { s with cfg := { Config.vectors with faultPolarity := .sourceLiteral } }

/-- Frame S1 of 95_test_vectors.md section 2.7. -/
def frameS1 : List Byte :=
  [0x34, 0x08, 0x70, 0x17, 0xA0, 0x0F, 0x9C, 0xFF, 0x00, 0x00, 0xFF, 0xFF, 0x96, 0x00, 0x58, 0x1B] ++
  [0xAC, 0x0D, 0x48, 0x0D, 0xC2, 0x01, 0x90, 0x01, 0x66, 0x00, 0x88, 0x80, 0x20, 0x07, 0x00, 0x00]

/-- Frame S2 of 95_test_vectors.md section 2.7. -/
def frameS2 : List Byte :=
  [0x34, 0x08, 0x70, 0x17, 0xA0, 0x0F, 0x9C, 0xFF, 0x00, 0x00, 0xFF, 0xFF, 0x96, 0x00, 0x58, 0x1B] ++
  [0xAC, 0x0D, 0x48, 0x0D, 0xC2, 0x01, 0x90, 0x01, 0x66, 0x00, 0x88, 0x00, 0x00, 0x07, 0x00, 0x00]

/-- A frame from a list of bytes. -/
def frameOf (bytes : List Byte) : Frame := fun i => bytes.getD i.val 0

/-! ### Well-formedness: an ill-formed term for each check -/

theorem test_wf_iter_clock_refused : Instr.wf clock14 (.iter true 16384) = false := by decide

theorem test_wf_timeoutCheck_clock_refused : Instr.wf clock14 (.timeoutCheck 16384) = false := by
  decide

theorem test_wf_reqIssue_clock_refused : Instr.wf clock14 (.reqIssue 16384) = false := by decide

theorem test_wf_schedCheck_clock_refused : Instr.wf clock14 (.schedCheck 16384) = false := by decide

theorem test_wf_largest_clock_accepted : Instr.wf clock14 (.iter true 16383) = true := by decide

/-! ### Decoding: a word for every constructor, written out from 30_encoding.md R107 to R112 and R118 -/

theorem test_decode_iter : decodeTableWord 64 0x1000000100001388 = some (.iter true 5000) := by decide

theorem test_decode_iter_not_ready :
    decodeTableWord 64 0x1000000000001388 = some (.iter false 5000) := by decide

theorem test_decode_rxArrive :
    decodeTableWord 64
      0b0010000000000000000000000000000000000000000000000000000010011100 =
      some (.rxArrive 0x9C) := by decide

theorem test_decode_cfgScanPeriod :
    decodeTableWord 64 0x30000000FFFFFFFB = some (.cfgScanPeriod (-5)) := by decide

theorem test_decode_cfgRawPublish :
    decodeTableWord 64 0x4000000000000001 = some (.cfgRawPublish 1) := by decide

theorem test_decode_reset : decodeTableWord 64 0xF000000000000000 = some .reset := by decide

theorem test_decode_drain : decodeTableWord 8 0b00000001 = some .drain := by decide

theorem test_decode_rxAccept : decodeTableWord 8 0b00000010 = some (.rxAccept 0) := by decide

theorem test_decode_frameComplete : decodeTableWord 8 0b00000011 = some .frameComplete := by decide

theorem test_decode_timeoutCheck : decodeTableWord 8 0b00000100 = some (.timeoutCheck 0) := by decide

theorem test_decode_reqIssue : decodeTableWord 8 0b00000101 = some (.reqIssue 0) := by decide

theorem test_decode_schedCheck : decodeTableWord 8 0b00000110 = some (.schedCheck 0) := by decide

theorem test_decode_decodePublish : decodeTableWord 8 0b00000111 = some .decodePublish := by decide

theorem test_decode_fxpDecode : decodeTableWord 8 0b00010000 = some (.fxpDecode 0 0) := by decide

theorem test_decode_fxpScale : decodeTableWord 8 0b00010001 = some (.fxpScale 0 .x100) := by decide

theorem test_decode_flagTest : decodeTableWord 8 0b00010010 = some (.flagTest 0 0) := by decide

theorem test_decode_hexDigit : decodeTableWord 8 0b00010011 = some (.hexDigit 0) := by decide

theorem test_decode_decodeFrame : decodeTableWord 8 0b00100000 = some .decodeFrame := by decide

theorem test_decode_pressureSelect :
    decodeTableWord 8 0b00100001 = some (.pressureSelect 0 false) := by decide

theorem test_decode_faultFlag : decodeTableWord 8 0b00100010 = some (.faultFlag 0) := by decide

theorem test_decode_statusExtend :
    decodeTableWord 8 0b00100011 = some (.statusExtend 0 0 false) := by decide

theorem test_decode_descLookup : decodeTableWord 8 0b00100100 = some (.descLookup 0) := by decide

theorem test_decode_hexEcho : decodeTableWord 8 0b00100101 = some .hexEcho := by decide

/-- The refused words of 95_test_vectors.md section 2.1, each by the name of its reason. -/
theorem test_decode_refusals :
    decode .vectors (.event 0x5000000000000000) = .error .reservedKind ∧
    decode .vectors (.event 0) = .error .reservedKind ∧
    decode .vectors (.event 0x1000000200000000) = .error .reservedBits ∧
    decode .vectors (.event 0x2000000000000100) = .error .reservedBits ∧
    decode .vectors (.event 0xF000000000000001) = .error .reservedBits ∧
    decode clock14 (.event 0x1000000100004000) = .error .clockBits ∧
    decode clock14 (.event 0x1000000100003FFF) = .ok (.iter true 16383) := by decide

/-- The operand fields of the model's micro-operation words (log 4), the factor and condition bits among
them, and a reserved bit above them. -/
theorem test_decode_micro_operands :
    decode .vectors (.micro 0x0000349C10) = .ok (.fxpDecode 0x9C 0x34) ∧
    decode .vectors (.micro 0x0001CF2C11) = .ok (.fxpScale 0xCF2C .x10) ∧
    decode .vectors (.micro 0x0001076623) = .ok (.statusExtend 0x66 7 true) ∧
    decode .vectors (.micro 0x0000013324) = .ok (.descLookup 307) ∧
    decode .vectors (.micro 0x0000138804) = .ok (.timeoutCheck 5000) ∧
    decode .vectors (.micro 0x0000023324) = .error .reservedBits ∧
    decode .vectors (.micro 0x0000000008) = .error .noSuchMicroOp := by decide

/-! ### Steps -/

theorem test_step_performs_reset_word :
    nextMeets (step (State.reset.withFetchWord 64 0x2000000000000053))
      (fun t => t.rxFifo = [0x53] && t.port = []) = true := by decide

theorem test_step_marks_refused_word :
    nextMeets (step (State.reset.withFetchWord 64 0x5000000000000000))
      (fun t => t.refused && t.trace = [] && t.port = []) = true := by decide

theorem test_step_micro_word_is_performed :
    nextMeets (step (State.reset.withFetchWord 8 0x25)) (fun t => t.port = []) = true := by decide

/-! ### The host events -/

/-- 95_test_vectors.md S2v: the first request, at the period. -/
theorem test_iter_first_request :
    nextMeets (exec (.iter true 5000) State.reset)
      (fun t => t.trace = [.tx 0x53, .tx 0x3F, .tx 0x0D] && t.acqState = .await &&
        t.byteCount = 0 && t.deadlineAnchor = 5000 && t.lastRequest = 5000) = true ∧
    nextMeets (exec (.iter true 4999) State.reset)
      (fun t => t.trace = [] && t.acqState = .idle) = true := by decide

/-- 95_test_vectors.md S5v: a timeout and a new request in one iteration. -/
theorem test_iter_timeout_then_request :
    nextMeets (exec (.iter true 8000) { awaiting 10 [] with scanPeriodMs := 2000 })
      (fun t => t.trace = [.err .timeout 10, .tx 0x53, .tx 0x3F, .tx 0x0D] &&
        t.lastRequest = 8000 && t.acqState = .await) = true := by decide

/-- 95_test_vectors.md A1, and the byte before it. -/
theorem test_rxArrive_at_the_depth :
    nextMeets (exec (.rxArrive 0x11) { State.reset with rxFifo := List.replicate 64 0 })
      (fun t => t.rxFifo.length = 64 && t.trace = []) = true ∧
    nextMeets (exec (.rxArrive 0x11) { State.reset with rxFifo := List.replicate 63 0 })
      (fun t => t.rxFifo.getLast? = some 0x11 && t.rxFifo.length = 64) = true := by decide

/-- 95_test_vectors.md C1v, C3v, C4v. -/
theorem test_cfgScanPeriod_low_end :
    nextMeets (exec (.cfgScanPeriod 1) State.reset)
      (fun t => t.scanPeriodMs = 5000 && t.trace = [.err .malformedCommand 1]) = true ∧
    nextMeets (exec (.cfgScanPeriod (-1)) State.reset)
      (fun t => t.scanPeriodMs = 5000 && t.trace = [.err .malformedCommand 0xFFFFFFFF]) = true ∧
    nextMeets (exec (.cfgScanPeriod 2) State.reset)
      (fun t => t.scanPeriodMs = 2000 && t.trace = []) = true := by decide

/-- 95_test_vectors.md C5v, C6v. -/
theorem test_cfgScanPeriod_high_end :
    nextMeets (exec (.cfgScanPeriod 4294967) State.reset)
      (fun t => t.scanPeriodMs = 4294967000 && t.trace = []) = true ∧
    nextMeets (exec (.cfgScanPeriod 4294968) State.reset)
      (fun t => t.scanPeriodMs = 5000 && t.trace = [.err .malformedCommand 4294968]) = true := by
  decide

/-- 95_test_vectors.md C8v. -/
theorem test_cfgRawPublish :
    nextMeets (exec (.cfgRawPublish 1) State.reset) (fun t => t.rawPublishEn) = true ∧
    nextMeets (exec (.cfgRawPublish 0) { State.reset with rawPublishEn := true })
      (fun t => !t.rawPublishEn) = true ∧
    nextMeets (exec (.cfgRawPublish 2) { State.reset with rawPublishEn := true })
      (fun t => t.rawPublishEn && t.trace = [.err .malformedCommand 2]) = true := by decide

/-- 70_reset_and_hazards.md R270: `refused` stays, the fields are reset, the trace is kept. -/
theorem test_reset_keeps_the_mark :
    nextMeets (exec .reset { awaiting 3 [0x11] with refused := true, scanPeriodMs := 2000 })
      (fun t => t.refused && t.scanPeriodMs = 5000 && t.acqState = .idle && t.rxFifo = [] &&
        t.byteCount = 0 && t.deadlineAnchor = 0 && t.frameBuf = []) = true := by decide

/-! ### The micro-operations of the Frame Assembler and the Poll Scheduler -/

/-- 95_test_vectors.md A4: the frame completes and the byte after it stays. -/
theorem test_drain_leaves_the_rest :
    nextMeets (exec .drain (awaiting 30 [0x00, 0x00, 0x55]))
      (fun t => t.rxFifo = [0x55] && t.acqState = .idle && t.frameReady && t.byteCount = 32 &&
        t.trace = [.diag '0', .diag '0', .diag '0', .diag '0']) = true := by decide

/-- 95_test_vectors.md A3. -/
theorem test_drain_in_idle :
    nextMeets (exec .drain { State.reset with byteCount := 32, rxFifo := [0x55] })
      (fun t => t.rxFifo = [0x55] && t.trace = []) = true := by decide

/-- 95_test_vectors.md A10. -/
theorem test_rxAccept_stores_and_echoes :
    nextMeets (exec (.rxAccept 0x53) (awaiting 0 []))
      (fun t => t.frameBuf.read 0 = some 0x53 && t.byteCount = 1 && t.acqState = .await &&
        t.trace = [.diag '5', .diag '3']) = true := by decide

/-- 41_frame_assembler.md R156: the 32nd byte completes the frame. -/
theorem test_rxAccept_last_byte :
    nextMeets (exec (.rxAccept 0x9C) (awaiting 31 []))
      (fun t => t.handBuf.read 31 = some 0x9C && t.frameReady && t.acqState = .idle) = true := by
  decide

/-- 41_frame_assembler.md R157. -/
theorem test_frameComplete_copies :
    nextMeets (exec .frameComplete (awaiting 32 []))
      (fun t => t.handBuf.read 31 = some 0 && t.frameReady && t.acqState = .idle) = true := by decide

/-- 95_test_vectors.md A5, A6. -/
theorem test_timeoutCheck_boundary :
    nextMeets (exec (.timeoutCheck 7999) (awaiting 31 []))
      (fun t => t.trace = [] && t.acqState = .await) = true ∧
    nextMeets (exec (.timeoutCheck 8000) (awaiting 31 []))
      (fun t => t.trace = [.err .timeout 31] && t.acqState = .idle && t.byteCount = 0) = true := by
  decide

/-- 95_test_vectors.md A8, A9: the boundary across the clock's wrap. -/
theorem test_timeoutCheck_wraps :
    nextMeets (exec (.timeoutCheck 999) { awaiting 5 [] with deadlineAnchor := 0xFFFFF830 })
      (fun t => t.trace = []) = true ∧
    nextMeets (exec (.timeoutCheck 1000) { awaiting 5 [] with deadlineAnchor := 0xFFFFF830 })
      (fun t => t.trace = [.err .timeout 5]) = true := by decide

/-- 95_test_vectors.md A2. -/
theorem test_reqIssue_flushes :
    nextMeets (exec (.reqIssue 5000) { State.reset with rxFifo := [0x11, 0x22] })
      (fun t => t.rxFifo = [] && t.trace = [.tx 0x53, .tx 0x3F, .tx 0x0D] &&
        t.acqState = .await && t.deadlineAnchor = 5000) = true := by decide

/-- 95_test_vectors.md S3v. -/
theorem test_schedCheck_boundary :
    nextMeets (exec (.schedCheck 9999) idling) (fun t => t.trace = []) = true ∧
    nextMeets (exec (.schedCheck 10000) idling)
      (fun t => t.lastRequest = 10000 && t.acqState = .await) = true := by decide

/-- 95_test_vectors.md section 2.7, frame S1 published. -/
theorem test_decodePublish_status :
    nextMeets (exec .decodePublish (handed frameS1 false))
      (fun t => !t.frameReady &&
        (snapshots t.trace).map (fun x => (x.statusCode, x.faultCode)) = [(102, 0)]) = true := by
  decide

/-- 43_poll_scheduler.md R217: the raw rendering comes second where enabled. -/
theorem test_decodePublish_raw :
    nextMeets (exec .decodePublish (handed frameS2 true))
      (fun t => t.trace.length = 2 && !t.frameReady) = true := by decide

/-! ### The Byte Decoder -/

/-- 95_test_vectors.md section 2.2. -/
theorem test_fxpDecode_vectors :
    fxpDecode 0x08 0x34 = ⟨2100, -2⟩ ∧ fxpDecode 0x7F 0xFF = ⟨32767, -2⟩ ∧
    fxpDecode 0x80 0x00 = ⟨-32768, -2⟩ ∧ fxpDecode 0x80 0xFF = ⟨-32513, -2⟩ ∧
    fxpDecode 0xFE 0x0C = ⟨-500, -2⟩ ∧ fxpDecode 0xFF 0x9C = ⟨-100, -2⟩ := by decide

/-- 95_test_vectors.md section 2.3. -/
theorem test_fxpScale_vectors :
    nextMeets (exec (.fxpScale 0xFF38 .x100) State.reset)
      (fun t => t.result = .scaled ⟨-200, 0⟩) = true ∧
    nextMeets (exec (.fxpScale 0x01C2 .x10) State.reset)
      (fun t => t.result = .scaled ⟨450, -1⟩) = true := by decide

/-- 95_test_vectors.md section 2.4. -/
theorem test_flagTest_vectors :
    flagTest 0x88 0x08 = true ∧ flagTest 0x80 0x08 = false ∧ flagTest 0x00 0x00 = true ∧
    flagTest 0x88 0x88 = true ∧ flagTest 0x80 0x88 = false := by decide

/-- 95_test_vectors.md section 2.5. -/
theorem test_hexDigit_vectors :
    hexDigit 0x00 = '0' ∧ hexDigit 0x09 = '9' ∧ hexDigit 0x0A = 'A' ∧ hexDigit 0x0F = 'F' ∧
    hexDigit 0x1A = 'A' ∧ hexDigit 0xFF = 'F' := by decide

/-! ### The Status Decoder -/

/-- 95_test_vectors.md section 2.7, frame S1: the measurements. -/
theorem test_decodeFrame_measurements :
    nextMeets (exec .decodeFrame (handed frameS1 false)) (fun t =>
      match t.result with
      | .snapshot x =>
        x.t1 = ⟨2100, -2⟩ && x.t3 = ⟨-100, -2⟩ && x.t5 = ⟨-1, -2⟩ && x.pressure = ⟨150, -2⟩ &&
          x.fanSpeed = ⟨3400, 0⟩ && x.fanPwm = ⟨450, -1⟩ && x.ionisationCurrent = ⟨400, -2⟩
      | _ => false) = true := by decide

/-- 95_test_vectors.md section 2.7, frame S2 under both polarities. -/
theorem test_decodeFrame_fault :
    (decodeFrame .intended (frameOf frameS2)).statusCode = 263 ∧
    (decodeFrame .intended (frameOf frameS2)).faultCode = 7 ∧
    (decodeFrame .intended (frameOf frameS2)).pressure = ⟨-3500, -2⟩ ∧
    (decodeFrame .sourceLiteral (frameOf frameS2)).statusCode = 102 ∧
    (decodeFrame .sourceLiteral (frameOf frameS2)).faultCode = 0 := by decide

/-- 95_test_vectors.md section 2.6, `PRESSURE_SELECT`. -/
theorem test_pressureSelect_vectors :
    nextMeets (exec (.pressureSelect 150 true) State.reset)
      (fun t => t.result = .scaled ⟨150, -2⟩) = true ∧
    nextMeets (exec (.pressureSelect 150 false) State.reset)
      (fun t => t.result = .scaled ⟨-3500, -2⟩) = true := by decide

/-- 95_test_vectors.md section 2.6, `FAULT_FLAG`. -/
theorem test_faultFlag_vectors :
    faultFlag .intended 0x80 = false ∧ faultFlag .intended 0x00 = true ∧
    faultFlag .intended 0x7F = true ∧ faultFlag .intended 0xFF = false ∧
    faultFlag .sourceLiteral 0x00 = false ∧ faultFlag .sourceLiteral 0xFF = false := by decide

/-- 95_test_vectors.md section 2.6, `STATUS_EXTEND`. -/
theorem test_statusExtend_vectors :
    statusExtend 0x66 7 true = (263, 7) ∧ statusExtend 0x66 7 false = (102, 0) ∧
    statusExtend 0x66 0 true = (256, 0) ∧ statusExtend 0x00 0xFF true = (511, 255) := by decide

/-- 95_test_vectors.md section 2.6, `DESC_LOOKUP`. -/
theorem test_descLookup_vectors :
    descLookup 102 = (.cvBrandt, "CV brandt".toList) ∧ descLookup 0 = (.code, "Code 0".toList) ∧
    descLookup 307 = (.code, "Code 307".toList) ∧
    descLookup 511 = (.code, "Code 511".toList) := by decide

/-- 95_test_vectors.md section 2.7, the raw rendering of S1. -/
theorem test_hexEcho_vector :
    (hexEcho (frameOf frameS1)).length = 96 ∧
    (hexEcho (frameOf frameS1)).take 12 = "34 08 70 17 ".toList ∧
    (hexEcho (frameOf frameS1)).drop 84 = "20 07 00 00 ".toList := by decide

/-! ### Beside the machine -/

/-- 95_test_vectors.md section 2.10. -/
theorem test_temperatureText_vectors :
    temperatureText ⟨5, -2⟩ = "0.05".toList ∧ temperatureText ⟨-1, -2⟩ = "-0.01".toList ∧
    temperatureText ⟨2100, -2⟩ = "21.00".toList ∧
    temperatureText ⟨-32768, -2⟩ = "-327.68".toList := by decide

/-- 30_encoding.md R119: the words of two script lines. -/
theorem test_assemble_words :
    assemble [.rx 0x9C, .down 5000] =
      [.event 0x200000000000009C, .event 0x1000000000001388] := by decide

/-! ### Witnesses for the hypotheses of the statements -/

/-- `EncodedInstructionDecodesToItself`, at the ends of the clock's range. -/
theorem test_witness_wf_instr :
    Instr.wf Config.vectors (.iter true 0xFFFFFFFF) = true ∧
    Instr.wf clock14 (.schedCheck 16383) = true := by decide

/-- `DecodedWordIsTheEncoding`. -/
theorem test_witness_decoded_word :
    decode Config.vectors (.micro 0x0000000025) = .ok .hexEcho ∧
    decode Config.vectors (.event 0x1000000100001388) = .ok (.iter true 5000) := by decide

/-- `StepRunsTheDecodedWord`, `EventWordIsPerformedOrMarked` (both of its cases). -/
theorem test_witness_port :
    (State.reset.withFetchWord 64 0xF000000000000000).port = [.event 0xF000000000000000] ∧
    decode State.reset.cfg (.event 0xF000000000000000) = .ok .reset ∧
    (State.reset.withFetchWord 64 0x5000000000000000).port = [.event 0x5000000000000000] ∧
    decode State.reset.cfg (.event 0x5000000000000000) = .error .reservedKind := by decide

/-- `EmptyPortHoldsTheState`. -/
theorem test_witness_empty_port : State.reset.port = [] := rfl

/-- `RefusedMarkIsNeverCleared`: a step that sets the mark, and one of a marked state. -/
theorem test_witness_mark :
    nextMeets (step (State.reset.withFetchWord 64 0)) (fun t => t.refused) = true ∧
    nextMeets (step (({ State.reset with refused := true }).withFetchWord 64 0xF000000000000000))
      (fun t => t.refused) = true := by decide

/-- `StepKeepsTheParameters`: a step that answers a next state. -/
theorem test_witness_step_next :
    step (State.reset.withFetchWord 64 0xF000000000000000) = .next (resetBlock State.reset) := rfl

/-- `LaunchStateIsWhatResetLeaves`, `LaunchStateMeetsTheInvariant`: legal parameters, also at the ends of
their ranges. -/
theorem test_witness_legal_parameters :
    State.reset.cfg = Config.vectors ∧ Config.vectors.Wf ∧
    Config.Wf ⟨14, 5000, 1, .sourceLiteral⟩ ∧ Config.Wf ⟨32, 10000, 64, .intended⟩ := by decide

/-- Every field of the invariant at a waiting state with accepted and buffered bytes. -/
theorem test_awaiting_core (n : Nat) (hn : n ≤ 31) (fifo : List Byte) (hf : fifo.length ≤ 64)
    (hz : Memory.wf (zeros n)) (hfill : ∀ i, i < n → ((zeros n).read i).isSome = true) :
    CoreInv (awaiting n fifo) where
  cfg_wf := (by decide : Config.vectors.Wf)
  frame_wf := hz
  hand_wf := Memory.wf_nil
  await_count := fun _ => hn
  idle_count := fun h => by cases h
  frame_filled := hfill
  hand_whole := .inl rfl
  ready_hand := fun h => by cases h
  anchors_eq := rfl
  anchor_lt := (by decide : (5000#32).toNat < Config.vectors.modulus)
  period_legal := .inl rfl
  fifo_le := hf

/-- `EveryStepKeepsTheCoreInvariant`, `EveryHostStepKeepsTheInvariant`, `HostStepNeverStops`,
`SnapshotsComeFromWholeFrames`, `WholeFrameIsPublishedOnce`: a waiting state whose frame is whole with the
buffered byte. -/
theorem test_witness_host_state :
    HostInv (awaiting 31 [0x9C]) ∧ (awaiting 31 [0x9C]).acqState = .await ∧
    32 ≤ (awaiting 31 [0x9C]).byteCount + (awaiting 31 [0x9C]).rxFifo.length :=
  ⟨⟨test_awaiting_core 31 (by decide) _ (by decide) (by decide) (by decide), rfl,
    by simp [awaiting, State.reset, State.launch]⟩, rfl, by decide⟩

/-- The same with an iteration's word at the port, so that the step performs an event. -/
theorem test_witness_host_word :
    HostInv ((awaiting 31 [0x9C]).withFetchWord 64 0x1000000100001F3F) where
  core :=
    { cfg_wf := test_witness_host_state.1.core.cfg_wf
      frame_wf := test_witness_host_state.1.core.frame_wf
      hand_wf := test_witness_host_state.1.core.hand_wf
      await_count := test_witness_host_state.1.core.await_count
      idle_count := test_witness_host_state.1.core.idle_count
      frame_filled := test_witness_host_state.1.core.frame_filled
      hand_whole := test_witness_host_state.1.core.hand_whole
      ready_hand := test_witness_host_state.1.core.ready_hand
      anchors_eq := rfl
      anchor_lt := test_witness_host_state.1.core.anchor_lt
      period_legal := .inl rfl
      fifo_le := test_witness_host_state.1.core.fifo_le }
  not_ready := rfl
  host_words := fun code h => by
    cases h with
    | head => rfl
    | tail _ h => cases h

/-- `SnapshotsComeFromWholeFrames`: a step from such a state that publishes. -/
theorem test_witness_publishing_step :
    nextMeets (step ((awaiting 31 [0x9C]).withFetchWord 64 0x1000000100001F3F))
      (fun t => (snapshots t.trace).length = 1) = true := by decide

/-- `FxpDecodeFollowsTheSourceFormula`: its two branches at their boundary. -/
theorem test_witness_fxp_branches :
    127 < (0x80 : Byte).toNat ∧ (0x7F : Byte).toNat ≤ 127 := by decide

/-- `FaultFlagUnderBothPolarities`, `DecodeFrameGivesEveryField`: both polarities, and both values of bit 7
of byte 27. -/
theorem test_witness_polarities :
    State.reset.cfg.faultPolarity = .intended ∧
    (sourceLiteral State.reset).cfg.faultPolarity = .sourceLiteral ∧
    (frameRead (handed frameS1 false) 27).getLsbD 7 = true ∧
    (frameRead (handed frameS2 false) 27).getLsbD 7 = false ∧
    (frameRead (handed frameS1 false) 28).getLsbD 5 = true ∧
    (frameRead (handed frameS2 false) 28).getLsbD 5 = false := by decide

/-- `DescLookupMatchesExactly`: codes of the table and codes beside them. -/
theorem test_witness_desc_codes :
    (51#9).toNat = 51 ∧ (231#9).toNat = 231 ∧ (307#9).toNat ∉ [51, 102, 126, 204, 231] ∧
    (0#9).toNat ∉ [51, 102, 126, 204, 231] ∧ (511#9).toNat ∉ [51, 102, 126, 204, 231] := by decide

/-- `UndecodedBytesShowOnlyInRawHex`: frames that differ in an undecoded byte alone, with either value of
bit 7 of byte 27. -/
theorem test_witness_undecoded :
    (∀ i : Fin 32, i ≠ 25 → i ≠ 30 → i ≠ 31 →
      frameOf frameS1 i = frameOf (frameS1.set 25 0xAA) i) ∧
    (frameOf frameS2 27).getLsbD 7 = false ∧
    (∀ i : Fin 32, i ≠ 24 → i ≠ 25 → i ≠ 30 → i ≠ 31 →
      frameOf frameS2 i = frameOf (frameS2.set 24 0xAA) i) ∧
    (frameOf frameS1 27).getLsbD 7 = true ∧
    (∀ i : Fin 32, i ≠ 29 → i ≠ 25 → i ≠ 30 → i ≠ 31 →
      frameOf frameS1 i = frameOf (frameS1.set 29 0xAA) i) := by
  refine ⟨?_, ?_, ?_, ?_, ?_⟩ <;> decide

/-- `RxArriveAppendsOrDrops`: one below the depth, and at it. -/
theorem test_witness_fifo :
    ({ State.reset with rxFifo := List.replicate 63 0 }).rxFifo.length <
      State.reset.cfg.rxFifoDepth ∧
    State.reset.cfg.rxFifoDepth ≤
      ({ State.reset with rxFifo := List.replicate 64 0 }).rxFifo.length := by decide

/-- `ReqIssueFlushesSendsAndAwaits`, `DrainInIdlePopsNothing`: both control states. -/
theorem test_witness_control_states :
    idling.acqState = .idle ∧ (awaiting 0 []).acqState = .await := by decide

/-- `RxAcceptAppendsAndEchoes`, `PreconditionsAreFaultsByName`: the counts around the last byte. -/
theorem test_witness_rxAccept_counts :
    ((awaiting 30 []).acqState = .await ∧ (awaiting 30 []).byteCount < 31) ∧
    ((awaiting 31 []).acqState = .await ∧ (awaiting 31 []).byteCount = 31) ∧
    ¬((awaiting 32 []).acqState = .await ∧ (awaiting 32 []).byteCount ≤ 31) ∧
    ¬(idling.acqState = .await ∧ idling.byteCount ≤ 31) := by decide

/-- `FrameCompleteHandsOverTheFrame`, `PreconditionsAreFaultsByName`. -/
theorem test_witness_frameComplete_counts :
    (awaiting 32 []).byteCount = 32 ∧ (awaiting 31 []).byteCount ≠ 32 := by decide

/-- `DrainAcceptsUpToTheWholeFrame`, `IterationRunsItsStagesInOrder`, `IterationOutputOrder`,
`IterationFrame`: one byte short of a frame, and a frame with a byte to spare. -/
theorem test_witness_drain_counts :
    ((awaiting 30 [0x11]).acqState = .await ∧ (awaiting 30 [0x11]).byteCount ≤ 31 ∧
      (awaiting 30 [0x11]).byteCount + (awaiting 30 [0x11]).rxFifo.length < 32) ∧
    ((awaiting 30 [0, 0, 0x55]).acqState = .await ∧ (awaiting 30 [0, 0, 0x55]).byteCount ≤ 31 ∧
      32 ≤ (awaiting 30 [0, 0, 0x55]).byteCount + (awaiting 30 [0, 0, 0x55]).rxFifo.length) := by
  decide

/-- `TimeoutCheckAbandonsAtTheDeadline`, `TimeoutBoundaryOfAnIteration`, `NoRequestWhileAwaiting`: the two
sides of the deadline. -/
theorem test_witness_deadline :
    delta State.reset.cfg 7999 5000 = 2999 ∧ delta State.reset.cfg 8000 5000 = 3000 ∧
    (awaiting 31 []).deadlineAnchor = 5000 ∧ (awaiting 31 []).acqState = .await ∧
    (awaiting 31 []).byteCount + (awaiting 31 []).rxFifo.length < 32 := by decide

/-- `TimeoutBoundaryOfAnIteration`, `IterationFrame`, `AnchorMovesExactlyOnARequest`,
`OnlyRequestBytesAreSent`, `OutputsOfOneEventAreBounded`: iterations that answer a next state, one with a
request and one without. -/
theorem test_witness_iterations :
    nextMeets (exec (.iter true 8000) (awaiting 31 []))
      (fun t => txBytes t.trace = [] && t.lastRequest = 5000) = true ∧
    nextMeets (exec (.iter true 10000) idling)
      (fun t => txBytes t.trace = [0x53, 0x3F, 0x0D] && t.lastRequest = 10000) = true ∧
    nextMeets (exec (.iter true 8000) (awaiting 31 [0x00]))
      (fun t => diagCount t.trace = 2 && (snapshots t.trace).length = 1) = true := by decide

/-- `ElapsedTimeAcrossAWrap`: without and across a wrap (95_test_vectors.md A8). -/
theorem test_witness_elapsed :
    (0xFFFFFFFF#32).toNat < 2 ^ Config.vectors.clkW ∧
    delta Config.vectors 999 0xFFFFF830 = 2999 ∧
    (999#32).toNat < (0xFFFFF830#32).toNat ∧ (5000#32).toNat ≤ (7999#32).toNat := by decide

/-- `SchedCheckIssuesWhenDue`: the two sides of the period. -/
theorem test_witness_due :
    idling.acqState = .idle ∧
    idling.scanPeriodMs.toNat ≤ delta idling.cfg 10000 idling.lastRequest ∧
    ¬idling.scanPeriodMs.toNat ≤ delta idling.cfg 9999 idling.lastRequest := by decide

/-- `DecodePublishEmitsTheSnapshot`: its three cases. -/
theorem test_witness_publish_cases :
    ((handed frameS1 true).frameReady = true ∧ (handed frameS1 true).rawPublishEn = true) ∧
    ((handed frameS1 false).frameReady = true ∧ (handed frameS1 false).rawPublishEn = false) ∧
    State.reset.frameReady = false := by decide

/-- `CfgScanPeriodValidates`, `LargestScanPeriod`: the payloads around both ends of the range, and legal
parameters. -/
theorem test_witness_scan_payloads :
    State.reset.cfg.Wf ∧ Config.vectors.clkW = 32 ∧
    (2 ≤ (2#32).toInt ∧ (2#32).toInt ≤ (scanSMax State.reset.cfg : Int)) ∧
    (2 ≤ (4294967#32).toInt ∧ (4294967#32).toInt ≤ (scanSMax State.reset.cfg : Int)) ∧
    ¬(2 ≤ (1#32).toInt ∧ (1#32).toInt ≤ (scanSMax State.reset.cfg : Int)) ∧
    ¬(2 ≤ (4294968#32).toInt ∧ (4294968#32).toInt ≤ (scanSMax State.reset.cfg : Int)) := by decide

/-- `CfgRawPublishValidates`: the three kinds of payload. -/
theorem test_witness_raw_payloads :
    (0#32).toNat = 0 ∧ (1#32).toNat = 1 ∧ 2 ≤ (2#32).toNat := by decide

/-- `ReconfigurationLeavesTheAssembler`: a waiting state whose period is set. -/
theorem test_witness_reconfiguration :
    nextMeets (exec (.cfgScanPeriod 2) (awaiting 5 [0x11]))
      (fun t => t.scanPeriodMs = 2000 && t.byteCount = 5 && t.rxFifo = [0x11]) = true := by decide

/-- `AssemblerHasThreeTransitions`: each transition takes place, and an event that is neither `RESET` nor
`ITER` runs. -/
theorem test_witness_transitions :
    nextMeets (exec (.schedCheck 10000) idling) (fun t => t.acqState ≠ idling.acqState) = true ∧
    nextMeets (exec .drain (awaiting 31 [0])) (fun t => t.acqState = .idle && t.frameReady) = true ∧
    nextMeets (exec (.timeoutCheck 8000) (awaiting 31 []))
      (fun t => t.acqState = .idle && !t.frameReady) = true ∧
    nextMeets (exec (.rxArrive 0) (awaiting 31 [])) (fun t => t.acqState = .await) = true := by decide

/-- `TemperatureStringHasTwoDigits`: the ends of the range. -/
theorem test_witness_temperatures :
    (-32768 : Int) ≤ -32768 ∧ (-32768 : Int) ≤ 32767 ∧ (32767 : Int) ≤ 32767 := by decide

end Sys2Proof.Tests
end

section
/-! PROOFS. The statements about 00_scope.md: elapsed time (R17) and the largest scan period (R12). -/

namespace Sys2Proof.Machine

/-- At `CLK_W = 32` the clock's bound, and not `2^31 - 1`, limits the scan period (00_scope.md R12). -/
theorem scanSMax_of_clkW_eq_32 (c : Config) (h : c.clkW = 32) : scanSMax c = 4294967 := by
  have hm : c.modulus = 2 ^ 32 := congrArg (2 ^ ·) h
  rw [scanSMax, hm]
  decide

/-- Settles O39: the two laws of elapsed time, the modulus written out. -/
theorem elapsedTimeAcrossAWrap : Obligations.ElapsedTimeAcrossAWrap := by
  intro c now anchor hnow hanchor
  exact ⟨fun hle => delta_of_le c now anchor hle hnow,
    fun hlt => delta_of_lt c now anchor hlt hanchor⟩

/-- Settles O48: the formula is the definition's, and its value at 32 bits is a lemma's. -/
theorem largestScanPeriod : Obligations.LargestScanPeriod :=
  ⟨fun _ => rfl, scanSMax_of_clkW_eq_32⟩

end Sys2Proof.Machine
end

section
/-! PROOFS. What no operation breaks, said once over the dispatch, and the statements about 10_state.md:
the invariants, the refused mark (R43), the parameters (R30) and the step (R46). -/

namespace Sys2Proof.Machine

/-! ### The operations an instruction is made of -/

/-- `t` is what one of the named operations makes of `s`. A request's clock sample has `CLK_W` bits, as in
every well-formed instruction. -/
inductive Operation : State → State → Prop
  | setResult (r : Result) (s : State) : Operation s (setResult r s)
  | raise (code : ErrCode) (info : BitVec 32) (s : State) : Operation s (raise code info s)
  | rxAppend (data : Byte) (s : State) : Operation s (rxAppend data s)
  | rxPop {b : Byte} {s t : State} : rxPop s = some (b, t) → Operation s t
  | rxAccept {b : Byte} {s t : State} : rxAccept b s = .ok t → Operation s t
  | frameComplete {s t : State} : frameComplete s = .ok t → Operation s t
  | timeoutCheck (now : Clock) (s : State) : Operation s (timeoutCheck now s)
  | reqIssue (now : Clock) (s : State) : Clock.wf s.cfg now = true → Operation s (reqIssue now s)
  | decodePublish (s : State) : Operation s (decodePublish s)
  | setScanPeriod (w : BitVec 32) (s : State) : Operation s (setScanPeriod w s)
  | setRawPublish (w : BitVec 32) (s : State) : Operation s (setRawPublish w s)
  | resetBlock (s : State) : Operation s (resetBlock s)

/-- `t` is what some operations, one after the other, make of `s`. -/
abbrev Operations : State → State → Prop := Relation.ReflTransGen Operation

/-- `t` has the parameters, the port and the refused mark of `s`. -/
structure SameOutside (s t : State) : Prop where
  cfg : t.cfg = s.cfg
  port : t.port = s.port
  refused : t.refused = s.refused

theorem rxPop_some {s t : State} {b : Byte} (h : rxPop s = some (b, t)) :
    ∃ rest, s.rxFifo = b :: rest ∧ t = { s with rxFifo := rest } := by
  unfold rxPop at h
  split at h
  · cases h
  · next rest hf => cases h; exact ⟨rest, hf, rfl⟩

/-- No operation writes the parameters, the port or the refused mark, `RESET` among them
(10_state.md R30, R43). -/
theorem Operation.sameOutside {s t : State} (h : Operation s t) : SameOutside s t := by
  cases h with
  | setResult | raise | resetBlock => exact ⟨rfl, rfl, rfl⟩
  | rxAppend data => exact ⟨rxAppend_cfg data s, rxAppend_port data s, rxAppend_refused data s⟩
  | rxPop h => obtain ⟨rest, -, rfl⟩ := rxPop_some h; exact ⟨rfl, rfl, rfl⟩
  | rxAccept h =>
    obtain ⟨-, ⟨-, rfl⟩ | ⟨-, rfl⟩⟩ := rxAccept_ok_cases h <;> exact ⟨rfl, rfl, rfl⟩
  | frameComplete h => obtain ⟨-, rfl⟩ := frameComplete_ok_cases h; exact ⟨rfl, rfl, rfl⟩
  | timeoutCheck now =>
    obtain ⟨-, h⟩ | ⟨-, h⟩ := timeoutCheck_cases now s <;> rw [h] <;> exact ⟨rfl, rfl, rfl⟩
  | reqIssue now =>
    obtain ⟨-, h⟩ | ⟨-, h⟩ := reqIssue_cases now s <;> rw [h] <;> exact ⟨rfl, rfl, rfl⟩
  | decodePublish =>
    obtain ⟨-, h⟩ | ⟨-, h⟩ := decodePublish_cases s <;> rw [h] <;> exact ⟨rfl, rfl, rfl⟩
  | setScanPeriod w =>
    obtain ⟨-, h⟩ | ⟨-, h⟩ := setScanPeriod_cases w s <;> rw [h] <;> exact ⟨rfl, rfl, rfl⟩
  | setRawPublish w =>
    obtain ⟨-, h⟩ | ⟨-, h⟩ | ⟨-, h⟩ := setRawPublish_cases w s <;> rw [h] <;> exact ⟨rfl, rfl, rfl⟩

theorem Operations.sameOutside {s t : State} (h : Operations s t) : SameOutside s t := by
  induction h with
  | refl => exact ⟨rfl, rfl, rfl⟩
  | tail _ hop ih =>
    obtain ⟨hcfg, hport, hrefused⟩ := hop.sameOutside
    exact ⟨hcfg.trans ih.cfg, hport.trans ih.port, hrefused.trans ih.refused⟩

/-- The loop of `DRAIN` pops and accepts, turn by turn (41_frame_assembler.md R154). -/
theorem drainLoop_operations (n : Nat) :
    ∀ {s t : State}, drainLoop n s = .ok t → Operations s t := by
  induction n with
  | zero => intro s t h; cases h; exact .refl
  | succ n ih =>
    intro s t h
    cases ha : s.acqState with
    | idle => rw [drainLoop_idle _ s ha] at h; cases h; exact .refl
    | await =>
      cases hpop : rxPop s with
      | none => simp only [drainLoop, ha, hpop] at h; cases h; exact .refl
      | some taken =>
        obtain ⟨b, popped⟩ := taken
        rw [drainLoop_turn n s popped b ha hpop] at h
        cases hacc : rxAccept b popped with
        | error f => rw [hacc] at h; cases h
        | ok accepted =>
          rw [hacc] at h
          exact .head (.rxPop hpop) (.head (.rxAccept hacc) (ih h))

theorem drain_operations {s t : State} (h : drain s = .ok t) : Operations s t :=
  drainLoop_operations _ h

/-- `SCHED_CHECK` issues a request or does nothing (43_poll_scheduler.md R213). -/
theorem schedCheck_operations (now : Clock) (s : State) (hnow : Clock.wf s.cfg now = true) :
    Operations s (schedCheck now s) := by
  unfold schedCheck
  split
  · exact .single (.reqIssue now s hnow)
  · exact .refl

/-- An iteration is one report or its four stages in order (43_poll_scheduler.md R210, R212). -/
theorem iterate_operations {ready : Bool} {now : Clock} {s t : State}
    (hnow : Clock.wf s.cfg now = true) (h : iterate ready now s = .ok t) : Operations s t := by
  obtain ⟨-, rfl⟩ | ⟨-, drained, hd, rfl⟩ := iterate_ok_cases h
  · exact .single (.raise .hardwareUnavailable 0 s)
  · have hchecked : Operations s (timeoutCheck now drained) :=
      .tail (drain_operations hd) (.timeoutCheck now drained)
    have hsched := schedCheck_operations now _ (hchecked.sameOutside.cfg.symm ▸ hnow)
    exact .tail (hchecked.trans hsched) (.decodePublish _)

/-- Every next state of a well-formed instruction is reached by operations. -/
theorem exec_operations {i : Instr} {s t : State} (hi : i.wf s.cfg = true)
    (h : exec i s = .next t) : Operations s t := by
  cases i with
  | iter => exact iterate_operations hi (outcomeOf_next h)
  | drain => exact drain_operations (outcomeOf_next h)
  | rxAccept => exact .single (.rxAccept (outcomeOf_next h))
  | frameComplete => exact .single (.frameComplete (outcomeOf_next h))
  | rxArrive => cases h; exact .single (.rxAppend _ s)
  | cfgScanPeriod => cases h; exact .single (.setScanPeriod _ s)
  | cfgRawPublish => cases h; exact .single (.setRawPublish _ s)
  | reset => cases h; exact .single (.resetBlock s)
  | timeoutCheck => cases h; exact .single (.timeoutCheck _ s)
  | reqIssue => cases h; exact .single (.reqIssue _ s hi)
  | schedCheck => cases h; exact schedCheck_operations _ s hi
  | decodePublish => cases h; exact .single (.decodePublish s)
  | fxpDecode | fxpScale | flagTest | hexDigit | decodeFrame | pressureSelect | faultFlag
  | statusExtend | descLookup | hexEcho => cases h; exact .single (.setResult _ s)

/-- What a step that answers a next state was: idle, the operations of a decoded word, or a refused event
word. -/
theorem step_operations_cases {s t : State} (h : step s = .next t) :
    (s.port = [] ∧ t = s) ∨
    (∃ code rest i, s.port = code :: rest ∧ decode s.cfg code = .ok i ∧
      exec i { s with port := rest } = .next t ∧ Operations { s with port := rest } t) ∨
    (∃ w rest e, s.port = .event w :: rest ∧ decode s.cfg (.event w) = .error e ∧
      t = { s with port := rest, refused := true }) := by
  obtain hidle | ⟨code, rest, i, hp, hd, hexec⟩ | hrefused := step_next_cases h
  · exact .inl hidle
  · have hwf : i.wf s.cfg = true := (decode_wf hd).1
    exact .inr (.inl ⟨code, rest, i, hp, hd, hexec, exec_operations hwf hexec⟩)
  · exact .inr (.inr hrefused)

/-! ### The invariant of the state -/

namespace CoreInv

variable {s t : State}

/-- A popped byte leaves `rx_fifo` shorter. -/
theorem rxPop {b : Byte} (h : rxPop s = some (b, t)) (hs : CoreInv s) : CoreInv t := by
  obtain ⟨rest, hf, rfl⟩ := rxPop_some h
  have hlen := hs.fifo_le
  rw [hf, List.length_cons] at hlen
  exact { hs with fifo_le := Nat.le_of_succ_le hlen }

theorem rxAppend (data : Byte) (hs : CoreInv s) : CoreInv (rxAppend data s) := by
  obtain ⟨hlt, h⟩ | ⟨-, h⟩ := rxAppend_cases data s <;> rw [h]
  · exact { hs with fifo_le := by simpa using hlt }
  · exact hs

/-- The 32nd byte fills `frame_buf`, and the copy of a full buffer is a whole frame
(41_frame_assembler.md R156, R157). -/
theorem rxAccept {b : Byte} (h : rxAccept b s = .ok t) (hs : CoreInv s) : CoreInv t := by
  obtain ⟨ha, ⟨hlt, rfl⟩ | ⟨h31, rfl⟩⟩ := rxAccept_ok_cases h
  · exact { hs with
      frame_wf := Memory.write_wf _ _ _ hs.frame_wf (by omega)
      await_count := fun _ => hlt
      idle_count := fun hidle => by simp [ha] at hidle
      frame_filled := Memory.filled_write _ _ _ hs.frame_filled }
  · have hwf : Memory.wf (s.frameBuf.write 31 b) := Memory.write_wf _ _ _ hs.frame_wf (by decide)
    have hfull : (s.frameBuf.write 31 b).filled 32 :=
      Memory.filled_write _ _ _ (h31 ▸ hs.frame_filled)
    exact { hs with
      frame_wf := h31 ▸ hwf
      hand_wf := hwf
      await_count := fun hawait => by cases hawait
      idle_count := fun _ => .inr (by simp [h31])
      frame_filled := Memory.filled_write _ _ _ hs.frame_filled
      hand_whole := .inr hfull
      ready_hand := fun _ => hfull }

theorem frameComplete (h : frameComplete s = .ok t) (hs : CoreInv s) : CoreInv t := by
  obtain ⟨h32, rfl⟩ := frameComplete_ok_cases h
  have hfull : s.frameBuf.filled 32 := h32 ▸ hs.frame_filled
  exact { hs with
    hand_wf := hs.frame_wf
    await_count := fun hawait => by cases hawait
    idle_count := fun _ => .inr h32
    hand_whole := .inr hfull
    ready_hand := fun _ => hfull }

theorem timeoutCheck (now : Clock) (hs : CoreInv s) : CoreInv (timeoutCheck now s) := by
  obtain ⟨-, h⟩ | ⟨-, h⟩ := timeoutCheck_cases now s <;> rw [h]
  · exact { hs with
      await_count := fun hawait => by cases hawait
      idle_count := fun _ => .inl rfl
      frame_filled := Memory.filled_zero _
      ready_hand := fun hready => by cases hready }
  · exact hs

/-- A request sets both anchors to one sample, which lies below the modulus (10_state.md R34, R38). -/
theorem reqIssue (now : Clock) (hnow : Clock.wf s.cfg now = true) (hs : CoreInv s) :
    CoreInv (reqIssue now s) := by
  obtain ⟨-, h⟩ | ⟨-, h⟩ := reqIssue_cases now s <;> rw [h]
  · exact { hs with
      await_count := fun _ => Nat.zero_le _
      idle_count := fun _ => .inl rfl
      frame_filled := Memory.filled_zero _
      anchors_eq := rfl
      anchor_lt := of_decide_eq_true hnow
      fifo_le := Nat.zero_le _ }
  · exact hs

theorem decodePublish (hs : CoreInv s) : CoreInv (decodePublish s) := by
  obtain ⟨-, h⟩ | ⟨-, h⟩ := decodePublish_cases s <;> rw [h]
  · exact { hs with ready_hand := fun hready => by cases hready }
  · exact hs

/-- An accepted number of seconds is a legal period: its milliseconds fit the 32 bits (10_state.md R40). -/
theorem setScanPeriod (w : BitVec 32) (hs : CoreInv s) : CoreInv (setScanPeriod w s) := by
  obtain ⟨⟨h2, hmax⟩, h⟩ | ⟨-, h⟩ := setScanPeriod_cases w s <;> rw [h]
  · obtain ⟨k, hk⟩ := Int.eq_ofNat_of_zero_le (show 0 ≤ w.toInt by omega)
    have hkmax : k ≤ scanSMax s.cfg := by omega
    have hfits := (scanSMax_mul_lt s.cfg hs.cfg_wf k hkmax).2
    have hms : (BitVec.ofInt 32 (w.toInt * 1000)).toNat = 1000 * k := by
      rw [BitVec.toNat_ofInt]
      omega
    exact { hs with period_legal := .inr ⟨k, by omega, hkmax, hms⟩ }
  · exact { hs with }

theorem setRawPublish (w : BitVec 32) (hs : CoreInv s) : CoreInv (setRawPublish w s) := by
  obtain ⟨-, h⟩ | ⟨-, h⟩ | ⟨-, h⟩ := setRawPublish_cases w s <;> rw [h] <;> exact { hs with }

/-- The reset values meet the invariant; the period at reset fits 32 bits (00_scope.md R11). -/
theorem resetBlock (hs : CoreInv s) : CoreInv (resetBlock s) := by
  obtain ⟨-, -, -, hmax, -⟩ := hs.cfg_wf
  exact { hs with
    frame_wf := Memory.wf_nil
    hand_wf := Memory.wf_nil
    await_count := fun hawait => by cases hawait
    idle_count := fun _ => .inl rfl
    frame_filled := Memory.filled_zero _
    hand_whole := .inl rfl
    ready_hand := fun hready => by cases hready
    anchors_eq := rfl
    anchor_lt := modulus_pos _
    period_legal := .inl (by
      simp only [resetBlock_scanPeriodMs, resetBlock_cfg, BitVec.toNat_ofNat]
      omega)
    fifo_le := Nat.zero_le _ }

/-- Every operation keeps the invariant. -/
theorem of_operation (hop : Operation s t) (hs : CoreInv s) : CoreInv t := by
  cases hop with
  | setResult | raise => exact { hs with }
  | rxAppend data => exact hs.rxAppend data
  | rxPop h => exact hs.rxPop h
  | rxAccept h => exact hs.rxAccept h
  | frameComplete h => exact hs.frameComplete h
  | timeoutCheck now => exact hs.timeoutCheck now
  | reqIssue now _ hnow => exact hs.reqIssue now hnow
  | decodePublish => exact hs.decodePublish
  | setScanPeriod w => exact hs.setScanPeriod w
  | setRawPublish w => exact hs.setRawPublish w
  | resetBlock => exact hs.resetBlock

theorem of_operations (hops : Operations s t) (hs : CoreInv s) : CoreInv t := by
  induction hops with
  | refl => exact hs
  | tail _ hop ih => exact ih.of_operation hop

end CoreInv

/-- Settles O14: taking a word and the refused mark are nothing to the invariant, and a decoded word is
operations, each of which keeps it. -/
theorem everyStepKeepsTheCoreInvariant : Obligations.EveryStepKeepsTheCoreInvariant := by
  intro s t hs hstep
  obtain ⟨-, rfl⟩ | ⟨_, rest, _, -, -, -, hops⟩ | ⟨_, _, _, -, -, rfl⟩ := step_operations_cases hstep
  · exact hs
  · have htaken : CoreInv { s with port := rest } := { hs with }
    exact htaken.of_operations hops
  · exact { hs with }

/-! ### Between the events of a host -/

/-- Publishing ends the hand-over (43_poll_scheduler.md R217). -/
theorem decodePublish_frameReady (s : State) : (decodePublish s).frameReady = false := by
  obtain ⟨-, h⟩ | ⟨hready, h⟩ := decodePublish_cases s <;> rw [h]
  exact hready

/-- An iteration leaves no frame handed over: its last stage publishes it (43_poll_scheduler.md R218). -/
theorem iterate_frameReady {ready : Bool} {now : Clock} {s t : State}
    (h : iterate ready now s = .ok t) (hs : s.frameReady = false) : t.frameReady = false := by
  obtain ⟨-, rfl⟩ | ⟨-, drained, -, rfl⟩ := iterate_ok_cases h
  · exact hs
  · exact decodePublish_frameReady _

/-- No host event leaves a frame handed over (10_state.md R35). -/
theorem exec_event_frameReady {i : Instr} {s t : State} (hi : i.isEvent = true)
    (h : exec i s = .next t) (hs : s.frameReady = false) : t.frameReady = false := by
  cases i with
  | iter => exact iterate_frameReady (outcomeOf_next h) hs
  | rxArrive data => cases h; exact (rxAppend_frameReady data s).trans hs
  | cfgScanPeriod seconds =>
    cases h
    obtain ⟨-, h⟩ | ⟨-, h⟩ := setScanPeriod_cases seconds s <;> rw [h] <;> exact hs
  | cfgRawPublish value =>
    cases h
    obtain ⟨-, h⟩ | ⟨-, h⟩ | ⟨-, h⟩ := setRawPublish_cases value s <;> rw [h] <;> exact hs
  | reset => cases h; rfl
  | _ => cases hi

/-- Settles O15: `CoreInv` is O14's; the words left at the port are events as before, and the one performed
is an event, which leaves no frame handed over. -/
theorem everyHostStepKeepsTheInvariant : Obligations.EveryHostStepKeepsTheInvariant := by
  intro s t hs hstep
  have hcore : CoreInv t := everyStepKeepsTheCoreInvariant s t hs.core hstep
  obtain ⟨-, rfl⟩ | ⟨code, rest, i, hp, hd, hexec, hops⟩ | ⟨w, rest, _, hp, -, rfl⟩ :=
    step_operations_cases hstep
  · exact hs
  · obtain ⟨hcode, hrest⟩ := List.forall_mem_cons.1 (hp ▸ hs.host_words)
    have hevent : i.isEvent = true := (decode_wf hd).2.trans hcode
    exact ⟨hcore, exec_event_frameReady hevent hexec hs.not_ready,
      hops.sameOutside.port.symm ▸ hrest⟩
  · obtain ⟨-, hrest⟩ := List.forall_mem_cons.1 (hp ▸ hs.host_words)
    exact ⟨hcore, hs.not_ready, hrest⟩

/-! ### The refused mark, the parameters and the step -/

/-- Settles O9: no operation writes the mark, and a word is either decoded or refused. -/
theorem refusedMarkIsNeverCleared : Obligations.RefusedMarkIsNeverCleared := by
  refine ⟨fun _ => rfl, fun s t hstep => ?_⟩
  obtain ⟨hp, rfl⟩ | ⟨code, rest, i, hp, hd, -, hops⟩ | ⟨w, rest, e, hp, hd, rfl⟩ :=
    step_operations_cases hstep
  · exact ⟨id, .inl, fun w rest e hw _ => by rw [hp] at hw; cases hw⟩
  · have hmark : t.refused = s.refused := hops.sameOutside.refused
    refine ⟨hmark.trans, fun ht => .inl (hmark.symm.trans ht), fun w rest' e hw he => ?_⟩
    rw [hp] at hw
    cases hw
    rw [hd] at he
    cases he
  · exact ⟨fun _ => rfl, fun _ => .inr ⟨w, rest, e, hp, hd⟩, fun _ _ _ _ _ => rfl⟩

/-- Settles O10: no operation writes the parameters, nor does taking or refusing a word. -/
theorem stepKeepsTheParameters : Obligations.StepKeepsTheParameters := by
  intro s t hstep
  obtain ⟨-, rfl⟩ | ⟨_, _, _, -, -, -, hops⟩ | ⟨_, _, _, -, -, rfl⟩ := step_operations_cases hstep
  · rfl
  · exact hops.sameOutside.cfg
  · rfl

/-- Settles O6: the step's case of a word that decodes. -/
theorem stepRunsTheDecodedWord : Obligations.StepRunsTheDecodedWord := step_decoded

end Sys2Proof.Machine
end

section
/-! PROOFS. The statements about 30_encoding.md: the words and their layouts (R106 to R118, R121), event
scripts (R120) and the request bytes (R90 to R92). -/

namespace Sys2Proof

/-! ### The layout of a word -/

/-- Bit fields with their widths, the one at the lowest bits first. -/
abbrev Fields := List ((width : Nat) × BitVec width)

/-- From bit `lo` up, `w` holds the given fields, one after the other. -/
@[simp] def HoldsFields {n : Nat} (w : BitVec n) : Nat → Fields → Prop
  | _, [] => True
  | lo, ⟨width, x⟩ :: rest => bitsAt w lo width = x ∧ HoldsFields w (lo + width) rest

/-- Every bit of an instruction's word, reserved bits among them (30_encoding.md R107 to R112, R118;
log 4). -/
@[simp] def Instr.fields : Instr → Fields
  | .iter ready now => [⟨32, now⟩, ⟨1, .ofBool ready⟩, ⟨27, 0⟩, ⟨4, 0x1⟩]
  | .rxArrive data => [⟨8, data⟩, ⟨52, 0⟩, ⟨4, 0x2⟩]
  | .cfgScanPeriod seconds => [⟨32, seconds⟩, ⟨28, 0⟩, ⟨4, 0x3⟩]
  | .cfgRawPublish value => [⟨32, value⟩, ⟨28, 0⟩, ⟨4, 0x4⟩]
  | .reset => [⟨60, 0⟩, ⟨4, 0xF⟩]
  | .drain => [⟨8, 0x01⟩, ⟨32, 0⟩]
  | .rxAccept b => [⟨8, 0x02⟩, ⟨8, b⟩, ⟨24, 0⟩]
  | .frameComplete => [⟨8, 0x03⟩, ⟨32, 0⟩]
  | .timeoutCheck now => [⟨8, 0x04⟩, ⟨32, now⟩]
  | .reqIssue now => [⟨8, 0x05⟩, ⟨32, now⟩]
  | .schedCheck now => [⟨8, 0x06⟩, ⟨32, now⟩]
  | .decodePublish => [⟨8, 0x07⟩, ⟨32, 0⟩]
  | .fxpDecode msb lsb => [⟨8, 0x10⟩, ⟨8, msb⟩, ⟨8, lsb⟩, ⟨16, 0⟩]
  | .fxpScale raw factor => [⟨8, 0x11⟩, ⟨16, raw⟩, ⟨1, .ofBool factor.bit⟩, ⟨15, 0⟩]
  | .flagTest byte mask => [⟨8, 0x12⟩, ⟨8, byte⟩, ⟨8, mask⟩, ⟨16, 0⟩]
  | .hexDigit n => [⟨8, 0x13⟩, ⟨8, n⟩, ⟨24, 0⟩]
  | .decodeFrame => [⟨8, 0x20⟩, ⟨32, 0⟩]
  | .pressureSelect p hp => [⟨8, 0x21⟩, ⟨16, p⟩, ⟨1, .ofBool hp⟩, ⟨15, 0⟩]
  | .faultFlag b27 => [⟨8, 0x22⟩, ⟨8, b27⟩, ⟨24, 0⟩]
  | .statusExtend r f fault => [⟨8, 0x23⟩, ⟨8, r⟩, ⟨8, f⟩, ⟨1, .ofBool fault⟩, ⟨15, 0⟩]
  | .descLookup c => [⟨8, 0x24⟩, ⟨9, c⟩, ⟨23, 0⟩]
  | .hexEcho => [⟨8, 0x25⟩, ⟨32, 0⟩]

/-- A word of the instruction's kind that holds the instruction's fields. -/
@[simp] def Code.Carries : Code → Instr → Prop
  | .event w, i => i.isEvent = true ∧ HoldsFields w 0 i.fields
  | .micro u, i => i.isEvent = false ∧ HoldsFields u 0 i.fields

/-- Words that hold the same fields agree on the bits these cover. -/
theorem HoldsFields.getLsbD_eq {n : Nat} {v w : BitVec n} :
    ∀ {fields : Fields} {lo : Nat}, HoldsFields v lo fields → HoldsFields w lo fields →
      ∀ j, lo ≤ j → j < lo + (fields.map Sigma.fst).sum → v.getLsbD j = w.getLsbD j
  | [], lo, _, _, j, hlo, hj => absurd hj (by simpa using hlo)
  | ⟨width, x⟩ :: rest, lo, ⟨hv, hvs⟩, ⟨hw, hws⟩, j, hlo, hj => by
    rcases Nat.lt_or_ge j (lo + width) with hin | hout
    · have hbit := congrArg (·.getLsbD (j - lo)) (hv.trans hw.symm)
      have hlt : j - lo < width := by omega
      simpa only [bitsAt_getLsbD, hlt, decide_true, Bool.true_and, Nat.add_sub_cancel' hlo]
        using hbit
    · exact hvs.getLsbD_eq hws j hout (by simpa [Nat.add_assoc] using hj)

/-- Fields that cover a word determine it. -/
theorem HoldsFields.unique {n : Nat} {v w : BitVec n} {fields : Fields}
    (hn : (fields.map Sigma.fst).sum = n)
    (hv : HoldsFields v 0 fields) (hw : HoldsFields w 0 fields) : v = w :=
  BitVec.eq_of_getLsbD_eq fun j hj => hv.getLsbD_eq hw j (Nat.zero_le j) (by omega)

/-- A layout leaves no bit of its word open (30_encoding.md R106; log 4). -/
theorem Instr.fields_width (i : Instr) :
    (i.fields.map Sigma.fst).sum = if i.isEvent then 64 else 40 := by
  cases i <;> rfl

/-- No instruction has two words. -/
theorem Code.Carries.unique {i : Instr} :
    ∀ {a b : Code}, a.Carries i → b.Carries i → a = b
  | .event _, .event _, ⟨hi, ha⟩, ⟨_, hb⟩ =>
    congrArg Code.event (ha.unique (by rw [i.fields_width, hi]; rfl) hb)
  | .micro _, .micro _, ⟨hi, ha⟩, ⟨_, hb⟩ =>
    congrArg Code.micro (ha.unique (by rw [i.fields_width, hi]; rfl) hb)
  | .event _, .micro _, ⟨hi, _⟩, ⟨hi', _⟩ => nomatch hi.symm.trans hi'
  | .micro _, .event _, ⟨hi, _⟩, ⟨hi', _⟩ => nomatch hi.symm.trans hi'

/-! ### The encoder and the decoder follow the layout -/

/-- The encoder places exactly the fields of the layout. -/
theorem encode_carries (i : Instr) : (encode i).Carries i := by
  cases i <;>
    simp (disch := omega) [encode, Instr.isEvent, bitsAt_or, bitsAt_fieldAt_same,
      bitsAt_fieldAt_apart]

/-- A field of one bit is that bit. -/
@[simp] theorem bitsAt_one_eq_ofBool {n : Nat} (w : BitVec n) (lo : Nat) (b : Bool) :
    bitsAt w lo 1 = .ofBool b ↔ w.getLsbD lo = b := by
  have hbit : bitsAt w lo 1 = .ofBool (w.getLsbD lo) := by
    refine BitVec.eq_of_getLsbD_eq fun j hj => ?_
    obtain rfl : j = 0 := by omega
    rw [bitsAt_getLsbD]
    simp
  rw [hbit]
  cases w.getLsbD lo <;> cases b <;> decide

@[simp] theorem scaleFactorOfBit_bit (f : ScaleFactor) : scaleFactorOfBit f.bit = f := by
  cases f <;> rfl

@[simp] theorem bit_scaleFactorOfBit (b : Bool) : (scaleFactorOfBit b).bit = b := by
  cases b <;> rfl

@[simp] theorem whenReservedZero_zero {n : Nat} (i : Instr) : whenReservedZero 0#n i = .ok i :=
  if_pos rfl

theorem whenClock_of_wf {c : Config} {now : Clock} (h : Clock.wf c now = true) (i : Instr) :
    whenClock c now i = .ok i :=
  if_pos h

/-- The decoder accepts every word of the layout whose clock sample has `CLK_W` bits. -/
theorem decode_of_carries {c : Config} {code : Code} {i : Instr} (hi : i.wf c = true)
    (h : code.Carries i) : decode c code = .ok i := by
  cases code with
  | event w =>
    obtain ⟨hevent, hw⟩ := h
    cases i with
    | iter => simp_all [decode, decodeEvent, whenClock_of_wf hi]
    | rxArrive | cfgScanPeriod | cfgRawPublish | reset => simp_all [decode, decodeEvent]
    | _ => cases hevent
  | micro u =>
    obtain ⟨hmicro, hu⟩ := h
    cases i with
    | iter | rxArrive | cfgScanPeriod | cfgRawPublish | reset => cases hmicro
    | timeoutCheck | reqIssue | schedCheck => simp_all [decode, decodeMicro, whenClock_of_wf hi]
    | _ => simp_all [decode, decodeMicro]

/-- The decoder accepts no other word: it tests the kind or code and every reserved bit. -/
theorem carries_of_decode {c : Config} {code : Code} {i : Instr} (h : decode c code = .ok i) :
    code.Carries i := by
  cases code with
  | event w =>
    rw [decode, decodeEvent] at h
    split at h <;> rename_i hkind
    case h_6 => cases h
    case h_1 =>
      split at h
      · next hzero =>
        obtain ⟨-, rfl⟩ := whenClock_ok h
        simpa [Instr.isEvent, hzero] using (BitVec.toNat_eq_nat.1 hkind).2
      · cases h
    all_goals
      obtain ⟨hzero, rfl⟩ := whenReservedZero_ok h
      simpa [Instr.isEvent, hzero] using (BitVec.toNat_eq_nat.1 hkind).2
  | micro u =>
    rw [decode, decodeMicro] at h
    split at h <;> rename_i hcode
    case h_18 => cases h
    case h_4 | h_5 | h_6 =>
      obtain ⟨-, rfl⟩ := whenClock_ok h
      simpa [Instr.isEvent] using (BitVec.toNat_eq_nat.1 hcode).2
    all_goals
      obtain ⟨hzero, rfl⟩ := whenReservedZero_ok h
      simpa [Instr.isEvent, hzero] using (BitVec.toNat_eq_nat.1 hcode).2

/-- Settles O1: the encoder follows the layout, and so does the decoder. -/
theorem encodedInstructionDecodesToItself : Obligations.EncodedInstructionDecodesToItself :=
  fun _ i hi => decode_of_carries hi (encode_carries i)

/-- Settles O2: the word and the encoding hold the same fields, and these leave no bit open. -/
theorem decodedWordIsTheEncoding : Obligations.DecodedWordIsTheEncoding :=
  fun _ _ i h => (encode_carries i).unique (carries_of_decode h)

/-! ### The refused words -/

/-- A field is a quotient and a remainder of its word (00_scope.md R16). -/
theorem bitsAt_toNat {n : Nat} (w : BitVec n) (lo len : Nat) :
    (bitsAt w lo len).toNat = w.toNat / 2 ^ lo % 2 ^ len := by
  simp [bitsAt, Nat.shiftRight_eq_div_pow]

theorem bitsAt_eq_zero {n : Nat} (w : BitVec n) (lo len : Nat) :
    bitsAt w lo len = 0#len ↔ w.toNat / 2 ^ lo % 2 ^ len = 0 := by
  rw [← BitVec.toNat_inj, bitsAt_toNat]
  rfl

theorem whenReservedZero_error {n : Nat} (reserved : BitVec n) (i : Instr) :
    (∃ e, whenReservedZero reserved i = .error e) ↔ reserved ≠ 0#n := by
  unfold whenReservedZero
  split <;> simp_all

theorem whenClock_error (c : Config) (now : Clock) (i : Instr) :
    (∃ e, whenClock c now i = .error e) ↔ c.modulus ≤ now.toNat := by
  unfold whenClock Clock.wf
  split <;> simp_all

/-- Settles O3: the kind tells the format, and the format's reserved bits and the clock's upper bits are
read as quotients and remainders. -/
theorem refusedEventWordsExactly : Obligations.RefusedEventWordsExactly := by
  intro c w
  have hkind : w.toNat / 2 ^ 60 = (bitsAt w 60 4).toNat := by
    rw [bitsAt_toNat, Nat.mod_eq_of_lt (by omega)]
  rw [hkind, decode, decodeEvent]
  have hlt : (bitsAt w 60 4).toNat < 16 := (bitsAt w 60 4).isLt
  split <;> rename_i hk
  case h_1 =>
    split <;> rename_i hzero <;> rw [BitVec.ofNat_eq_ofNat, bitsAt_eq_zero] at hzero
    · simp_all [whenClock_error, bitsAt_toNat, Config.modulus]
    · simp_all
  case h_6 =>
    simp only [imp_false] at *
    exact iff_of_true ⟨_, rfl⟩ (.inl (by omega))
  all_goals simp [hk, whenReservedZero_error, bitsAt_eq_zero]

end Sys2Proof

namespace Sys2Proof.Machine

/-- Settles O7: a word decodes, and then to an instruction of the word's own kind, or does not. -/
theorem eventWordIsPerformedOrMarked : Obligations.EventWordIsPerformedOrMarked := by
  intro s w rest hp
  cases hd : decode s.cfg (.event w) with
  | ok i => exact .inl ⟨i, rfl, (decode_wf hd).2, step_decoded s _ rest i hp hd⟩
  | error e => exact .inr ⟨e, rfl, step_rejected s _ rest e hp hd⟩

/-- Settles O4: the thirteen words of the table, decoded one by one. -/
theorem vectorEventWordsDecode : Obligations.VectorEventWordsDecode := by
  unfold Obligations.VectorEventWordsDecode
  decide

/-- Settles O5: the seventeen codes and four beside them, decoded one by one. -/
theorem microCodesDecode : Obligations.MicroCodesDecode := by
  unfold Obligations.MicroCodesDecode
  decide

/-! ### Event scripts -/

/-- Lines of one byte each stand for the arrivals of these bytes in order (30_encoding.md R119). -/
theorem flatMap_expandLine_rx (bytes : List Byte) :
    (bytes.map ScriptLine.rx).flatMap expandLine = bytes.map Instr.rxArrive := by
  induction bytes with
  | nil => rfl
  | cons b bytes ih => exact congrArg (Instr.rxArrive b :: ·) ih

/-- Settles O57: a pseudo-line of bytes and the lines of one byte stand for the same arrivals; the other two
are an `ITER` line by definition. -/
theorem pseudoLinesExpand : Obligations.PseudoLinesExpand := by
  refine ⟨fun bytes => ?_, fun bytes => ⟨?_, ?_⟩, fun _ => rfl, fun _ => rfl⟩
  · simp [assemble, expandLine, flatMap_expandLine_rx]
  · simp [assemble, expandLine, flatMap_expandLine_rx]
  · simp [assemble, expandLine]

/-! ### The bytes sent on the serial line -/

theorem txBytes_append (xs ys : List OutEvent) : txBytes (xs ++ ys) = txBytes xs ++ txBytes ys := by
  fun_induction txBytes xs <;> simp_all [txBytes]

theorem txBytes_echoEvents (bytes : List Byte) : txBytes (echoEvents bytes) = [] := by
  induction bytes with
  | nil => rfl
  | cons b bytes ih => exact ih

theorem txBytes_publishedEvents (s : State) : txBytes (publishedEvents s) = [] := by
  unfold publishedEvents
  split <;> rfl

/-- From `s` to `t` the trace grew by events that send exactly `bytes`. -/
def Sends (bytes : List Byte) (s t : State) : Prop :=
  ∃ ev, t.trace = s.trace ++ ev ∧ txBytes ev = bytes

namespace Sends

variable {s t u : State} {xs ys : List Byte}

theorem of_trace_eq (h : t.trace = s.trace) : Sends [] s t := ⟨[], by simp [h], rfl⟩

theorem trans (hst : Sends xs s t) (htu : Sends ys t u) : Sends (xs ++ ys) s u := by
  obtain ⟨ev, ht, rfl⟩ := hst
  obtain ⟨ev', hu, rfl⟩ := htu
  exact ⟨ev ++ ev', by rw [hu, ht, List.append_assoc], txBytes_append ev ev'⟩

end Sends

/-- The three bytes of a request (30_encoding.md R90, R91). -/
def requestBytes : List Byte := [0x53, 0x3F, 0x0D]

theorem rxAccept_sends {b : Byte} {s t : State} (h : rxAccept b s = .ok t) : Sends [] s t := by
  obtain ⟨-, ⟨-, rfl⟩ | ⟨-, rfl⟩⟩ := rxAccept_ok_cases h <;> exact ⟨_, appendByte_trace b s, rfl⟩

theorem frameComplete_sends {s t : State} (h : frameComplete s = .ok t) : Sends [] s t := by
  obtain ⟨-, rfl⟩ := frameComplete_ok_cases h
  exact .of_trace_eq rfl

theorem drain_sends {s t : State} (h : drain s = .ok t) : Sends [] s t := by
  obtain hd | ⟨-, -, -, rfl⟩ := drain_ok_cases h
  · exact ⟨_, hd.trace, txBytes_echoEvents _⟩
  · exact .of_trace_eq rfl

theorem timeoutCheck_sends (now : Clock) (s : State) : Sends [] s (timeoutCheck now s) := by
  obtain ⟨-, h⟩ | ⟨-, h⟩ := timeoutCheck_cases now s <;> rw [h]
  · exact ⟨_, rfl, rfl⟩
  · exact .of_trace_eq rfl

theorem decodePublish_sends (s : State) : Sends [] s (decodePublish s) := by
  obtain ⟨-, h⟩ | ⟨-, h⟩ := decodePublish_cases s <;> rw [h]
  · exact ⟨_, rfl, txBytes_publishedEvents s⟩
  · exact .of_trace_eq rfl

theorem setScanPeriod_sends (w : BitVec 32) (s : State) : Sends [] s (setScanPeriod w s) := by
  obtain ⟨-, h⟩ | ⟨-, h⟩ := setScanPeriod_cases w s <;> rw [h]
  · exact .of_trace_eq rfl
  · exact ⟨_, rfl, rfl⟩

theorem setRawPublish_sends (w : BitVec 32) (s : State) : Sends [] s (setRawPublish w s) := by
  obtain ⟨-, h⟩ | ⟨-, h⟩ | ⟨-, h⟩ := setRawPublish_cases w s <;> rw [h]
  · exact .of_trace_eq rfl
  · exact .of_trace_eq rfl
  · exact ⟨_, rfl, rfl⟩

theorem reqIssue_sends (now : Clock) (s : State) :
    Sends [] s (reqIssue now s) ∨ Sends requestBytes s (reqIssue now s) := by
  obtain ⟨-, h⟩ | ⟨-, h⟩ := reqIssue_cases now s <;> rw [h]
  · exact .inr ⟨_, rfl, rfl⟩
  · exact .inl (.of_trace_eq rfl)

theorem schedCheck_sends (now : Clock) (s : State) :
    Sends [] s (schedCheck now s) ∨ Sends requestBytes s (schedCheck now s) := by
  unfold schedCheck
  split
  · exact reqIssue_sends now s
  · exact .inl (.of_trace_eq rfl)

/-- Of an iteration's stages only the scheduler's can send (43_poll_scheduler.md R210, R212). -/
theorem iterate_sends {ready : Bool} {now : Clock} {s t : State} (h : iterate ready now s = .ok t) :
    Sends [] s t ∨ (ready = true ∧ Sends requestBytes s t) := by
  obtain ⟨-, rfl⟩ | ⟨hready, drained, hd, rfl⟩ := iterate_ok_cases h
  · exact .inl ⟨_, rfl, rfl⟩
  · have hchecked := (drain_sends hd).trans (timeoutCheck_sends now drained)
    have hpublish := decodePublish_sends (schedCheck now (timeoutCheck now drained))
    obtain hsched | hsched := schedCheck_sends now (timeoutCheck now drained)
    · exact .inl ((hchecked.trans hsched).trans hpublish)
    · exact .inr ⟨hready, (hchecked.trans hsched).trans hpublish⟩

/-- What an instruction sends: nothing, or a request where it can issue one (30_encoding.md R92). -/
theorem exec_sends {i : Instr} {s t : State} (h : exec i s = .next t) :
    Sends [] s t ∨
      (Sends requestBytes s t ∧
        ∃ now, i = .iter true now ∨ i = .schedCheck now ∨ i = .reqIssue now) := by
  cases i with
  | iter ready now =>
    obtain hnone | ⟨rfl, hrequest⟩ := iterate_sends (outcomeOf_next h)
    · exact .inl hnone
    · exact .inr ⟨hrequest, now, .inl rfl⟩
  | schedCheck now =>
    cases h
    exact (schedCheck_sends now s).imp_right fun hrequest => ⟨hrequest, now, .inr (.inl rfl)⟩
  | reqIssue now =>
    cases h
    exact (reqIssue_sends now s).imp_right fun hrequest => ⟨hrequest, now, .inr (.inr rfl)⟩
  | drain => exact .inl (drain_sends (outcomeOf_next h))
  | rxAccept => exact .inl (rxAccept_sends (outcomeOf_next h))
  | frameComplete => exact .inl (frameComplete_sends (outcomeOf_next h))
  | rxArrive data => cases h; exact .inl (.of_trace_eq (rxAppend_trace data s))
  | cfgScanPeriod => cases h; exact .inl (setScanPeriod_sends _ s)
  | cfgRawPublish => cases h; exact .inl (setRawPublish_sends _ s)
  | timeoutCheck => cases h; exact .inl (timeoutCheck_sends _ s)
  | decodePublish => cases h; exact .inl (decodePublish_sends s)
  | reset | fxpDecode | fxpScale | flagTest | hexDigit | decodeFrame | pressureSelect | faultFlag
  | statusExtend | descLookup | hexEcho => cases h; exact .inl (.of_trace_eq rfl)

/-- Settles O52: an instruction sends nothing or a request. -/
theorem onlyRequestBytesAreSent : Obligations.OnlyRequestBytesAreSent := by
  intro i s t h
  obtain ⟨ev, ht, hnone⟩ | ⟨⟨ev, ht, hrequest⟩, hform⟩ := exec_sends h
  · exact ⟨ev, ht, .inl hnone⟩
  · exact ⟨ev, ht, .inr ⟨hrequest, hform⟩⟩

end Sys2Proof.Machine
end

section
/-! PROOFS. The statements about 40_byte_decoder.md: what each function of the Byte Decoder computes, and
the operations that return it. -/

namespace Sys2Proof.Machine

/-! ### `FXP_DECODE` and `FXP_SCALE` -/

/-- The source's negative branch in the bytes' own values: `msb ^ 0xFF = 255 - msb` (R131). -/
theorem xor_0xFF_toNat (b : Byte) : (b ^^^ 0xFF).toNat = 255 - b.toNat := by
  have hnot : b ^^^ 0xFF = ~~~b := BitVec.xor_allOnes
  rw [hnot, BitVec.toNat_not]

theorem fxpDecode_of_gt {msb : Byte} (lsb : Byte) (h : 127 < msb.toNat) :
    fxpDecode msb lsb = ⟨-((((msb ^^^ 0xFF).toNat : Int) + 1) * 256 - (lsb.toNat : Int)), -2⟩ :=
  if_pos h

theorem fxpDecode_of_le {msb : Byte} (lsb : Byte) (h : msb.toNat ≤ 127) :
    fxpDecode msb lsb = ⟨(msb.toNat : Int) * 256 + (lsb.toNat : Int), -2⟩ :=
  if_neg (Nat.not_lt.2 h)

/-- The upper byte counts by its signed value, the lower one by its unsigned value. -/
theorem append_toInt (msb lsb : Byte) :
    (msb ++ lsb : BitVec 16).toInt = 256 * msb.toInt + (lsb.toNat : Int) :=
  BitVec.toInt_append

/-- Both branches of the formula are the two's-complement value (R131). -/
theorem fxpDecode_eq_fixedPoint (msb lsb : Byte) : fxpDecode msb lsb = fixedPoint (msb ++ lsb) := by
  rw [fixedPoint, append_toInt, BitVec.toInt_eq_toNat_cond]
  rcases Nat.lt_or_ge 127 msb.toNat with hneg | hpos
  · rw [fxpDecode_of_gt lsb hneg, xor_0xFF_toNat, if_neg (by omega)]
    congr 1
    omega
  · rw [fxpDecode_of_le lsb hpos, if_pos (by omega), Int.mul_comm]

theorem fxpDecode_raw_bounds (msb lsb : Byte) :
    -32768 ≤ (fxpDecode msb lsb).raw ∧ (fxpDecode msb lsb).raw ≤ 32767 := by
  rw [fxpDecode_eq_fixedPoint]
  exact ⟨BitVec.le_toInt _, Int.le_of_lt_add_one (BitVec.toInt_lt)⟩

/-- The negative branch gives no zero (R130): `((msb ^ 0xFF) + 1) * 256 >= 256 > lsb`. -/
theorem fxpDecode_raw_neg {msb : Byte} (lsb : Byte) (h : 127 < msb.toNat) :
    (fxpDecode msb lsb).raw < 0 := by
  have hlsb := lsb.isLt
  rw [fxpDecode_of_gt lsb h]
  dsimp only
  omega

theorem fxpDecode_exp (msb lsb : Byte) : (fxpDecode msb lsb).exp = -2 := by
  rw [fxpDecode_eq_fixedPoint]
  rfl

/-- Settles O17: the formula's value is that of the 16-bit string. -/
theorem fxpDecodeIsTwosComplement : Obligations.FxpDecodeIsTwosComplement := by
  intro msb lsb s
  rw [exec, execFxpDecode, fxpDecode_eq_fixedPoint]
  rfl

/-- Settles O19: scaling keeps the raw value, which is that of 16 bits. -/
theorem measurementRanges : Obligations.MeasurementRanges := by
  intro msb lsb
  obtain ⟨hlo, hhi⟩ := fxpDecode_raw_bounds msb lsb
  exact ⟨⟨hlo, hhi, fxpDecode_exp msb lsb⟩, ⟨hlo, hhi, rfl⟩, ⟨hlo, hhi, rfl⟩⟩

/-- Settles O18: the two branches of the definition, and the corner pairs computed. -/
theorem fxpDecodeFollowsTheSourceFormula : Obligations.FxpDecodeFollowsTheSourceFormula := by
  refine ⟨fun msb lsb s => ⟨(fxpDecode msb lsb).raw, ?_, fun hneg => ⟨?_, ?_⟩, fun hpos => ?_⟩, ?_⟩
  · rw [← fxpDecode_exp msb lsb]
    rfl
  · rw [fxpDecode_of_gt lsb hneg]
  · exact fxpDecode_raw_neg lsb hneg
  · rw [fxpDecode_of_le lsb hpos]
  · decide

/-- Settles O20: each factor moves the exponent of the operand, and its raw value stays. -/
theorem fxpScaleIsExact : Obligations.FxpScaleIsExact :=
  fun _ _ => ⟨rfl, rfl⟩

/-! ### `FLAG_TEST` -/

@[simp] theorem flagTest_eq_true (byte mask : Byte) :
    flagTest byte mask = true ↔ byte &&& mask = mask :=
  decide_eq_true_iff

/-- Masking leaves the mask exactly when no bit of it is missing in the word (R136). -/
theorem and_eq_right_iff_getLsbD {n : Nat} (w mask : BitVec n) :
    w &&& mask = mask ↔ ∀ k, k < n → mask.getLsbD k = true → w.getLsbD k = true := by
  rw [BitVec.eq_of_getLsbD_eq_iff]
  simp only [BitVec.getLsbD_and, Bool.and_eq_right_iff_imp]

/-- Settles O21: the test is the comparison of R135, and this is R136's reading bit by bit. -/
theorem flagTestNeedsEveryMaskBit : Obligations.FlagTestNeedsEveryMaskBit := by
  intro byte mask s
  exact ⟨flagTest byte mask, rfl, flagTest_eq_true byte mask,
    (flagTest_eq_true byte mask).trans (and_eq_right_iff_getLsbD byte mask)⟩

/-! ### `HEX_DIGIT` -/

/-- The mask keeps the low four bits. -/
theorem and_0x0F_toNat (n : Byte) : (n &&& 0x0F).toNat = n.toNat % 16 :=
  (BitVec.toNat_and n 0x0F).trans (Nat.and_two_pow_sub_one_eq_mod n.toNat 4)

/-- The table's sixteen entries, compared one by one (30_encoding.md R104). -/
theorem hexTable_getD : ∀ k < 16, hexTable.getD k '0' = digitChar k := by decide

theorem hexDigit_eq_digitChar (n : Byte) : hexDigit n = digitChar (n.toNat % 16) := by
  rw [hexDigit, and_0x0F_toNat, hexTable_getD _ (Nat.mod_lt _ (by decide))]

/-- Settles O22: the masked input is an index of the table. -/
theorem hexDigitReadsTheTable : Obligations.HexDigitReadsTheTable := by
  intro n s
  rw [exec, execHexDigit, hexDigit_eq_digitChar]
  rfl

end Sys2Proof.Machine
end

section
/-! PROOFS. The statements about 41_frame_assembler.md: its operations one by one, what they make of
`acq_state` (R150), and what an iteration makes of a buffered frame (R154, R160, R161). -/

namespace Sys2Proof.Machine

/-! ### Each operation by itself -/

/-- Settles O30: the two branches of the append. -/
theorem rxArriveAppendsOrDrops : Obligations.RxArriveAppendsOrDrops := by
  intro data s
  exact ⟨fun hlt => congrArg Host.Outcome.next (if_pos hlt),
    fun hge => congrArg Host.Outcome.next (if_neg (Nat.not_lt.2 hge))⟩

/-- Settles O31: the state `REQ_ISSUE` leaves in `IDLE`, and that it leaves `AWAIT` alone. -/
theorem reqIssueFlushesSendsAndAwaits : Obligations.ReqIssueFlushesSendsAndAwaits := by
  intro now s
  exact ⟨fun hidle => congrArg Host.Outcome.next (reqIssue_idle now s hidle),
    fun hawait => congrArg Host.Outcome.next (reqIssue_await now s hawait)⟩

/-- Settles O33: outside its precondition each of the two answers its own fault. -/
theorem preconditionsAreFaultsByName : Obligations.PreconditionsAreFaultsByName :=
  ⟨fun b s hpre => congrArg outcomeOf (rxAccept_outside b s hpre),
    fun s hcount => congrArg outcomeOf (frameComplete_not_full s hcount)⟩

/-- Settles O34: the state `FRAME_COMPLETE` leaves at 32 bytes. -/
theorem frameCompleteHandsOverTheFrame : Obligations.FrameCompleteHandsOverTheFrame :=
  fun s hcount => congrArg outcomeOf (frameComplete_full s hcount)

/-- Settles O35: the loop of `DRAIN` makes no turn in `IDLE`. -/
theorem drainInIdlePopsNothing : Obligations.DrainInIdlePopsNothing :=
  fun s hidle => congrArg outcomeOf (drainLoop_idle _ s hidle)

/-- Settles O37: the two cases of `TIMEOUT_CHECK`. -/
theorem timeoutCheckAbandonsAtTheDeadline : Obligations.TimeoutCheckAbandonsAtTheDeadline := by
  intro now s
  exact ⟨fun ⟨hawait, hdue⟩ => congrArg Host.Outcome.next (timeoutCheck_due now s hawait hdue),
    fun hnot => congrArg Host.Outcome.next (timeoutCheck_not_due now s hnot)⟩

/-- The echo of a byte in the spec's own characters, high digit first (41_frame_assembler.md R158). -/
theorem appendByte_trace_digits (b : Byte) (s : State) :
    (appendByte b s).trace =
      s.trace ++ [.diag (digitChar (b.toNat / 16)), .diag (digitChar (b.toNat % 16))] := by
  have hhigh : (b >>> 4).toNat % 16 = b.toNat / 16 := by
    rw [BitVec.toNat_ushiftRight, Nat.shiftRight_eq_div_pow]
    omega
  rw [appendByte_trace, hexDigit_eq_digitChar, hexDigit_eq_digitChar, hhigh]

/-- Settles O32: before the 32nd byte the operation is the append alone; the 32nd completes the frame. -/
theorem rxAcceptAppendsAndEchoes : Obligations.RxAcceptAppendsAndEchoes := by
  intro b s hawait hcount
  have hsame := Memory.read_write_same s.frameBuf s.byteCount b
  have hother : ∀ i, i ≠ s.byteCount →
      (s.frameBuf.write s.byteCount b).read i = s.frameBuf.read i :=
    fun i hi => Memory.read_write_other s.frameBuf b hi
  have htrace := appendByte_trace_digits b s
  rcases Nat.lt_or_eq_of_le hcount with hlt | h31
  · exact ⟨_, congrArg outcomeOf (rxAccept_append b s hawait hlt), rfl, hsame, hother, htrace,
      fun _ => ⟨hawait, rfl, rfl⟩, fun h31 => absurd h31 (Nat.ne_of_lt hlt),
      rfl, rfl, rfl, rfl, rfl, rfl, rfl, rfl, rfl, rfl⟩
  · exact ⟨_, congrArg outcomeOf (rxAccept_last b s hawait h31), rfl, hsame, hother, htrace,
      fun hlt => absurd h31 (Nat.ne_of_lt hlt), fun _ => ⟨rfl, rfl, by simp [h31]⟩,
      rfl, rfl, rfl, rfl, rfl, rfl, rfl, rfl, rfl, rfl⟩

/-! ### `DRAIN` -/

theorem drainCount_await {s : State} (h : s.acqState = .await) :
    drainCount s = min s.rxFifo.length (32 - s.byteCount) := by
  rw [drainCount, h]

/-- `DRAIN` completes a frame exactly where the rest of it is buffered (41_frame_assembler.md R154). -/
theorem drainCount_completes_iff {s : State} (hcount : s.acqState = .await → s.byteCount ≤ 31) :
    (s.acqState = .await ∧ s.byteCount + drainCount s = 32) ↔
      (s.acqState = .await ∧ 32 ≤ s.byteCount + s.rxFifo.length) := by
  refine and_congr_right fun hawait => ?_
  have hle := hcount hawait
  rw [drainCount_await hawait]
  omega

/-- Settles O36: what `DRAIN` leaves, with the number of accepted bytes written out. -/
theorem drainAcceptsUpToTheWholeFrame : Obligations.DrainAcceptsUpToTheWholeFrame := by
  intro s hawait hcount
  obtain ⟨t, ht, hd⟩ := drain_spec s fun _ => hcount
  have hcompletes := drainCount_completes_iff fun _ : s.acqState = .await => hcount
  rw [← drainCount_await hawait]
  refine ⟨t, congrArg outcomeOf ht, hd.fifo, hd.count, hd.trace, hd.accepted, hd.kept,
    fun hpartial => ?_, fun hwhole => ?_, hd.deadlineAnchor, hd.lastRequest, hd.scanPeriodMs,
    hd.rawPublishEn, hd.refused, hd.cfg, hd.port, hd.result, hd.epoch⟩
  · have hstays := hd.partial_frame fun h => absurd (hcompletes.1 h).2 (Nat.not_le.2 hpartial)
    rwa [hawait] at hstays
  · have hfull := hcompletes.2 ⟨hawait, hwhole⟩
    exact ⟨hd.count.trans hfull.2, hd.whole_frame hfull⟩

/-- `DRAIN` reads no clock and sets no anchor, and its outputs are the echoes, in every state it answers
in. -/
theorem drain_ok_frame {s t : State} (h : drain s = .ok t) :
    t.cfg = s.cfg ∧ t.deadlineAnchor = s.deadlineAnchor ∧
      t.trace = s.trace ++ echoEvents (s.rxFifo.take (drainCount s)) := by
  obtain hd | ⟨-, -, hf, rfl⟩ := drain_ok_cases h
  · exact ⟨hd.cfg, hd.deadlineAnchor, hd.trace⟩
  · exact ⟨rfl, rfl, by simp [hf, echoEvents]⟩

/-- In every state that meets the bound of R32, what `DRAIN` answers is what `Drained` describes. -/
theorem drain_ok_drained {s t : State} (hcount : s.acqState = .await → s.byteCount ≤ 31)
    (h : drain s = .ok t) : Drained s (drainCount s) t := by
  obtain ⟨u, hu, hd⟩ := drain_spec s hcount
  cases h.symm.trans hu
  exact hd

/-- A completed frame, as the Status Decoder sees it, is the accepted bytes and then the buffered ones
(20_memory.md R73). -/
theorem Drained.handFrame_eq {s t : State} (hd : Drained s (drainCount s) t)
    (hcompletes : s.acqState = .await ∧ s.byteCount + drainCount s = 32) :
    handFrame t = assembledFrame s := by
  obtain ⟨-, -, hhand⟩ := hd.whole_frame hcompletes
  funext i
  rw [handFrame, frameRead, assembledFrame, hhand, hd.epoch]
  congr 1
  split
  · next hlt => exact hd.kept i (.inl hlt)
  · next hge =>
    rw [← hd.accepted (i - s.byteCount) (by omega), Nat.add_sub_cancel' (Nat.not_lt.1 hge)]

/-- The snapshot of a completed frame is that of the assembled one. -/
theorem Drained.snapshotOf_eq {s t : State} (hd : Drained s (drainCount s) t)
    (hcompletes : s.acqState = .await ∧ s.byteCount + drainCount s = 32) :
    snapshotOf t = decodeFrame s.cfg.faultPolarity (assembledFrame s) := by
  rw [snapshotOf, hd.handFrame_eq hcompletes, hd.cfg]

/-- Every entry of a completed frame holds a value: no free value reaches it (10_state.md R33, R36). -/
theorem Drained.handBuf_read {s t : State} (hd : Drained s (drainCount s) t)
    (hcompletes : s.acqState = .await ∧ s.byteCount + drainCount s = 32) (ht : CoreInv t)
    (i : Fin 32) : t.handBuf.read i.val = some (assembledFrame s i) := by
  obtain ⟨-, hready, -⟩ := hd.whole_frame hcompletes
  obtain ⟨b, hb⟩ := Option.isSome_iff_exists.1 (ht.ready_hand hready i.val i.isLt)
  rw [← hd.handFrame_eq hcompletes, handFrame, frameRead, hb, Option.getD_some]

/-! ### The three transitions -/

/-- What an operation can make of `acq_state` from `s` to `t` (41_frame_assembler.md R150). -/
inductive Transition (s t : State) : Prop
  | kept : t.acqState = s.acqState → Transition s t
  | requested : s.acqState = .idle → t.acqState = .await → t.byteCount = 0 →
      t.trace = s.trace ++ requestEvents → Transition s t
  | completed : s.acqState = .await → t.acqState = .idle → t.frameReady = true →
      t.byteCount = 32 → t.handBuf = t.frameBuf → Transition s t
  | abandoned : s.acqState = .await → t.acqState = .idle → t.frameReady = false →
      t.byteCount = 0 → t.trace = s.trace ++ [.err .timeout (BitVec.ofNat 32 s.byteCount)] →
      Transition s t

theorem drain_transition {s t : State} (h : drain s = .ok t) : Transition s t := by
  obtain hd | ⟨-, -, -, rfl⟩ := drain_ok_cases h
  · by_cases hcompletes : s.acqState = .await ∧ s.byteCount + drainCount s = 32
    · obtain ⟨hidle, hready, hhand⟩ := hd.whole_frame hcompletes
      exact .completed hcompletes.1 hidle hready (hd.count.trans hcompletes.2) hhand
    · obtain ⟨hstays, -, -⟩ := hd.partial_frame hcompletes
      exact .kept hstays
  · exact .kept rfl

theorem rxAccept_transition {b : Byte} {s t : State} (h : rxAccept b s = .ok t) :
    Transition s t := by
  obtain ⟨hawait, ⟨-, rfl⟩ | ⟨h31, rfl⟩⟩ := rxAccept_ok_cases h
  · exact .kept rfl
  · exact .completed hawait rfl rfl (by simp [h31]) (by simp [h31])

theorem frameComplete_transition {s t : State} (h : frameComplete s = .ok t) :
    Transition s t := by
  obtain ⟨h32, rfl⟩ := frameComplete_ok_cases h
  cases hs : s.acqState with
  | idle => exact .kept hs.symm
  | await => exact .completed hs rfl rfl h32 rfl

theorem timeoutCheck_transition (now : Clock) (s : State) : Transition s (timeoutCheck now s) := by
  obtain ⟨⟨hawait, -⟩, h⟩ | ⟨-, h⟩ := timeoutCheck_cases now s <;> rw [h]
  · exact .abandoned hawait rfl rfl rfl rfl
  · exact .kept rfl

theorem reqIssue_transition (now : Clock) (s : State) : Transition s (reqIssue now s) := by
  obtain ⟨hidle, h⟩ | ⟨-, h⟩ := reqIssue_cases now s <;> rw [h]
  · exact .requested hidle rfl rfl rfl
  · exact .kept rfl

theorem schedCheck_transition (now : Clock) (s : State) : Transition s (schedCheck now s) := by
  unfold schedCheck
  split
  · exact reqIssue_transition now s
  · exact .kept rfl

theorem decodePublish_acqState (s : State) : (decodePublish s).acqState = s.acqState := by
  obtain ⟨-, h⟩ | ⟨-, h⟩ := decodePublish_cases s <;> rw [h]

theorem exec_micro_transition {i : Instr} {s t : State} (hi : i.isEvent = false)
    (h : exec i s = .next t) : Transition s t := by
  cases i with
  | drain => exact drain_transition (outcomeOf_next h)
  | rxAccept => exact rxAccept_transition (outcomeOf_next h)
  | frameComplete => exact frameComplete_transition (outcomeOf_next h)
  | timeoutCheck now => cases h; exact timeoutCheck_transition now s
  | reqIssue now => cases h; exact reqIssue_transition now s
  | schedCheck now => cases h; exact schedCheck_transition now s
  | decodePublish => cases h; exact .kept (decodePublish_acqState s)
  | fxpDecode | fxpScale | flagTest | hexDigit | decodeFrame | pressureSelect | faultFlag
  | statusExtend | descLookup | hexEcho => cases h; exact .kept rfl
  | _ => cases hi

/-- An arrival and the two setters leave the assembler's state alone (41_frame_assembler.md R151,
43_poll_scheduler.md R227). -/
theorem exec_event_acqState {i : Instr} {s t : State} (hi : i.isEvent = true) (hreset : i ≠ .reset)
    (hiter : ∀ r n, i ≠ .iter r n) (h : exec i s = .next t) : t.acqState = s.acqState := by
  cases i with
  | iter ready now => exact absurd rfl (hiter ready now)
  | reset => exact absurd rfl hreset
  | rxArrive data => cases h; exact rxAppend_acqState data s
  | cfgScanPeriod seconds =>
    cases h
    obtain ⟨-, h⟩ | ⟨-, h⟩ := setScanPeriod_cases seconds s <;> rw [h]
  | cfgRawPublish value =>
    cases h
    obtain ⟨-, h⟩ | ⟨-, h⟩ | ⟨-, h⟩ := setRawPublish_cases value s <;> rw [h]
  | _ => cases hi

/-- Settles O51: a micro-operation keeps `acq_state` or makes one of the three transitions. -/
theorem assemblerHasThreeTransitions : Obligations.AssemblerHasThreeTransitions := by
  refine ⟨fun i s t hi h hne => ?_, fun i s t hi hreset hiter => exec_event_acqState hi hreset hiter⟩
  cases exec_micro_transition hi h with
  | kept hkept => exact absurd hkept hne
  | requested hs ht hcount htrace => exact .inl ⟨hs, ht, hcount, htrace⟩
  | completed hs ht hready hcount hhand => exact .inr (.inl ⟨hs, ht, hready, hcount, hhand⟩)
  | abandoned hs ht hready hcount htrace =>
    exact .inr (.inr ⟨hs, ht, hready, hcount, htrace⟩)

/-! ### The output events of an iteration, stage by stage -/

/-- What `TIMEOUT_CHECK` reports (41_frame_assembler.md R159). -/
def timeoutEvents (now : Clock) (s : State) : List OutEvent :=
  if s.acqState = .await ∧ 3000 ≤ delta s.cfg now s.deadlineAnchor then
    [.err .timeout (BitVec.ofNat 32 s.byteCount)]
  else []

/-- What `SCHED_CHECK` sends (43_poll_scheduler.md R213). -/
def scheduledEvents (now : Clock) (s : State) : List OutEvent :=
  if s.acqState = .idle ∧ s.scanPeriodMs.toNat ≤ delta s.cfg now s.lastRequest then requestEvents
  else []

/-- What `DECODE_PUBLISH` publishes (43_poll_scheduler.md R217). -/
def handOverEvents (s : State) : List OutEvent := if s.frameReady then publishedEvents s else []

/-- What an iteration emits that starts in `s` and whose first stage leaves `drained`
(43_poll_scheduler.md R210). -/
def iterationEvents (now : Clock) (s drained : State) : List OutEvent :=
  echoEvents (s.rxFifo.take (drainCount s)) ++ timeoutEvents now drained ++
    scheduledEvents now (timeoutCheck now drained) ++
    handOverEvents (schedCheck now (timeoutCheck now drained))

theorem timeoutCheck_trace (now : Clock) (s : State) :
    (timeoutCheck now s).trace = s.trace ++ timeoutEvents now s := by
  obtain ⟨hdue, h⟩ | ⟨hnot, h⟩ := timeoutCheck_cases now s <;> rw [h, timeoutEvents]
  · rw [if_pos hdue]
  · rw [if_neg hnot, List.append_nil]

theorem schedCheck_trace (now : Clock) (s : State) :
    (schedCheck now s).trace = s.trace ++ scheduledEvents now s := by
  obtain ⟨hdue, h⟩ | ⟨hnot, h⟩ := schedCheck_cases now s <;> rw [h, scheduledEvents]
  · rw [if_pos hdue]
  · rw [if_neg hnot, List.append_nil]

theorem decodePublish_trace (s : State) :
    (decodePublish s).trace = s.trace ++ handOverEvents s := by
  obtain ⟨hready, h⟩ | ⟨hnot, h⟩ := decodePublish_cases s <;> rw [h, handOverEvents]
  · rw [if_pos hready]
  · rw [hnot, if_neg Bool.false_ne_true, List.append_nil]

/-- The events of the stages, one after the other, are those of the iteration. -/
theorem iteration_trace (now : Clock) {s drained : State} (h : drain s = .ok drained) :
    (decodePublish (schedCheck now (timeoutCheck now drained))).trace =
      s.trace ++ iterationEvents now s drained := by
  obtain ⟨-, -, hecho⟩ := drain_ok_frame h
  rw [decodePublish_trace, schedCheck_trace, timeoutCheck_trace, hecho, iterationEvents]
  simp only [List.append_assoc]

/-! ### Timeouts among the output events -/

theorem err_notMem_echoEvents (code : ErrCode) (info : BitVec 32) (bytes : List Byte) :
    .err code info ∉ echoEvents bytes := by
  simp [echoEvents]

theorem err_notMem_scheduledEvents (code : ErrCode) (info : BitVec 32) (now : Clock) (s : State) :
    .err code info ∉ scheduledEvents now s := by
  unfold scheduledEvents
  split <;> simp [requestEvents]

theorem err_notMem_handOverEvents (code : ErrCode) (info : BitVec 32) (s : State) :
    .err code info ∉ handOverEvents s := by
  unfold handOverEvents publishedEvents
  split
  · split <;> simp
  · simp

theorem mem_timeoutEvents (n : BitVec 32) (now : Clock) (s : State) :
    .err .timeout n ∈ timeoutEvents now s ↔
      (s.acqState = .await ∧ 3000 ≤ delta s.cfg now s.deadlineAnchor) ∧
        n = BitVec.ofNat 32 s.byteCount := by
  unfold timeoutEvents
  split <;> simp_all

/-- The timeouts an iteration reports are those of its `TIMEOUT_CHECK` (41_frame_assembler.md R160). -/
theorem timeout_mem_iterationEvents (n : BitVec 32) (now : Clock) (s drained : State) :
    .err .timeout n ∈ iterationEvents now s drained ↔
      (drained.acqState = .await ∧ 3000 ≤ delta drained.cfg now drained.deadlineAnchor) ∧
        n = BitVec.ofNat 32 drained.byteCount := by
  simp only [iterationEvents, List.mem_append, mem_timeoutEvents, err_notMem_echoEvents,
    err_notMem_scheduledEvents, err_notMem_handOverEvents, false_or, or_false]

/-- An iteration whose `DRAIN` completes the frame reports no timeout: `TIMEOUT_CHECK` finds `IDLE`
(41_frame_assembler.md R160). -/
theorem timeout_notMem_iterationEvents_whole (n : BitVec 32) (now : Clock) {s drained : State}
    (hd : Drained s (drainCount s) drained)
    (hcompletes : s.acqState = .await ∧ s.byteCount + drainCount s = 32) :
    .err .timeout n ∉ iterationEvents now s drained := by
  obtain ⟨hidle, -, -⟩ := hd.whole_frame hcompletes
  rw [timeout_mem_iterationEvents, hidle]
  rintro ⟨⟨hawait, -⟩, -⟩
  cases hawait

/-- Settles O38: `DRAIN` leaves the anchor, so the deadline is that of the start; it leaves `AWAIT` with
every buffered byte counted where they do not complete the frame, and `IDLE` where they do. -/
theorem timeoutBoundaryOfAnIteration : Obligations.TimeoutBoundaryOfAnIteration := by
  intro now s t h
  obtain ⟨hready, -⟩ | ⟨-, drained, hdrain, rfl⟩ := iterate_ok_cases (outcomeOf_next h)
  · cases hready
  obtain ⟨hcfg, hanchor, -⟩ := drain_ok_frame hdrain
  refine ⟨iterationEvents now s drained, iteration_trace now hdrain, fun hearly n hmem => ?_,
    fun hawait hlate hpartial => ?_, fun hawait hcount hwhole n hmem => ?_⟩
  · obtain ⟨⟨-, hlate⟩, -⟩ := (timeout_mem_iterationEvents n now s drained).1 hmem
    rw [hcfg, hanchor] at hlate
    omega
  · have hd := drain_ok_drained (fun _ => by omega) hdrain
    have hk : drainCount s = s.rxFifo.length := by rw [drainCount_await hawait]; omega
    obtain ⟨hstays, -, -⟩ := hd.partial_frame (by omega)
    rw [timeout_mem_iterationEvents, hcfg, hanchor, hstays, hd.count, hk]
    exact ⟨⟨hawait, hlate⟩, rfl⟩
  · have hd := drain_ok_drained (fun _ => hcount) hdrain
    have hcompletes := (drainCount_completes_iff fun _ => hcount).2 ⟨hawait, hwhole⟩
    exact timeout_notMem_iterationEvents_whole n now hd hcompletes hmem

/-! ### Snapshots among the output events -/

theorem snapshots_append (xs ys : List OutEvent) :
    snapshots (xs ++ ys) = snapshots xs ++ snapshots ys := by
  fun_induction snapshots xs <;> simp_all [snapshots]

theorem snapshots_echoEvents (bytes : List Byte) : snapshots (echoEvents bytes) = [] := by
  induction bytes with
  | nil => rfl
  | cons b bytes ih => exact ih

theorem snapshots_timeoutEvents (now : Clock) (s : State) :
    snapshots (timeoutEvents now s) = [] := by
  unfold timeoutEvents
  split <;> rfl

theorem snapshots_scheduledEvents (now : Clock) (s : State) :
    snapshots (scheduledEvents now s) = [] := by
  unfold scheduledEvents
  split <;> rfl

theorem snapshots_handOverEvents (s : State) :
    snapshots (handOverEvents s) = if s.frameReady then [snapshotOf s] else [] := by
  unfold handOverEvents publishedEvents
  split
  · split <;> rfl
  · rfl

theorem schedCheck_frameReady (now : Clock) (s : State) :
    (schedCheck now s).frameReady = s.frameReady := by
  obtain ⟨-, h⟩ | ⟨-, h⟩ := schedCheck_cases now s <;> rw [h]

theorem schedCheck_handBuf (now : Clock) (s : State) :
    (schedCheck now s).handBuf = s.handBuf := by
  obtain ⟨-, h⟩ | ⟨-, h⟩ := schedCheck_cases now s <;> rw [h]

theorem schedCheck_snapshotOf (now : Clock) (s : State) :
    snapshotOf (schedCheck now s) = snapshotOf s := by
  obtain ⟨-, h⟩ | ⟨-, h⟩ := schedCheck_cases now s <;> rw [h]
  rfl

theorem decodePublish_handBuf (s : State) : (decodePublish s).handBuf = s.handBuf := by
  obtain ⟨-, h⟩ | ⟨-, h⟩ := decodePublish_cases s <;> rw [h]

/-- `TIMEOUT_CHECK` does nothing outside `AWAIT` (41_frame_assembler.md R159). -/
theorem timeoutCheck_idle (now : Clock) {s : State} (h : s.acqState = .idle) :
    timeoutCheck now s = s :=
  timeoutCheck_not_due now s fun ⟨hawait, _⟩ => nomatch h.symm.trans hawait

/-- `TIMEOUT_CHECK` hands no frame over. -/
theorem timeoutCheck_frameReady_false (now : Clock) {s : State} (h : s.frameReady = false) :
    (timeoutCheck now s).frameReady = false := by
  obtain ⟨-, hc⟩ | ⟨-, hc⟩ := timeoutCheck_cases now s <;> rw [hc]
  exact h

/-- An iteration publishes the frame that is handed over when its last stage starts
(43_poll_scheduler.md R217). -/
theorem snapshots_iterationEvents (now : Clock) (s drained : State) :
    snapshots (iterationEvents now s drained) =
      if (timeoutCheck now drained).frameReady then [snapshotOf (timeoutCheck now drained)]
      else [] := by
  simp only [iterationEvents, snapshots_append, snapshots_echoEvents, snapshots_timeoutEvents,
    snapshots_scheduledEvents, snapshots_handOverEvents, schedCheck_frameReady,
    schedCheck_snapshotOf, List.nil_append]

/-- A frame that `DRAIN` completes is published, at every clock sample: `TIMEOUT_CHECK` finds `IDLE`
(43_poll_scheduler.md R217). -/
theorem snapshots_iterationEvents_whole (now : Clock) {s drained : State}
    (hd : Drained s (drainCount s) drained)
    (hcompletes : s.acqState = .await ∧ s.byteCount + drainCount s = 32) :
    snapshots (iterationEvents now s drained) =
      [decodeFrame s.cfg.faultPolarity (assembledFrame s)] := by
  obtain ⟨hidle, hready, -⟩ := hd.whole_frame hcompletes
  rw [snapshots_iterationEvents, timeoutCheck_idle now hidle, if_pos hready,
    hd.snapshotOf_eq hcompletes]

/-- Where `DRAIN` completes no frame and none was handed over, an iteration publishes none
(41_frame_assembler.md R161). -/
theorem snapshots_iterationEvents_partial (now : Clock) {s drained : State}
    (hd : Drained s (drainCount s) drained)
    (hpartial : ¬(s.acqState = .await ∧ s.byteCount + drainCount s = 32))
    (hs : s.frameReady = false) : snapshots (iterationEvents now s drained) = [] := by
  obtain ⟨-, hready, -⟩ := hd.partial_frame hpartial
  rw [snapshots_iterationEvents, timeoutCheck_frameReady_false now (hready.trans hs)]
  rfl

/-- Settles O56: `DRAIN` completes the frame, the two checks leave it, and the last stage publishes it. -/
theorem wholeFrameIsPublishedOnce : Obligations.WholeFrameIsPublishedOnce := by
  intro now s hs hawait hwhole
  obtain ⟨drained, hdrain, hd⟩ := drain_spec s hs.core.await_count
  have hcompletes := (drainCount_completes_iff hs.core.await_count).2 ⟨hawait, hwhole⟩
  obtain ⟨hidle, -, -⟩ := hd.whole_frame hcompletes
  have hcore : CoreInv drained := hs.core.of_operations (drain_operations hdrain)
  refine ⟨_, iterationEvents now s drained, congrArg outcomeOf (iterate_ready now s drained hdrain),
    iteration_trace now hdrain, snapshots_iterationEvents_whole now hd hcompletes,
    fun n => timeout_notMem_iterationEvents_whole n now hd hcompletes,
    decodePublish_frameReady _, fun i => ?_⟩
  rw [decodePublish_handBuf, schedCheck_handBuf, timeoutCheck_idle now hidle]
  exact hd.handBuf_read hcompletes hcore i

/-! ### Where snapshots come from -/

/-- From `s` to `t` the trace grew, and each snapshot among the new events is that of a frame `s` had whole,
in part accepted and in part buffered (41_frame_assembler.md R161, 20_memory.md R73). -/
def PublishesWholeFrames (s t : State) : Prop :=
  ∃ ev, t.trace = s.trace ++ ev ∧
    ∀ x ∈ snapshots ev, s.acqState = .await ∧ 32 ≤ s.byteCount + s.rxFifo.length ∧
      x = decodeFrame s.cfg.faultPolarity (assembledFrame s)

theorem PublishesWholeFrames.of_no_snapshot {s t : State} (ev : List OutEvent)
    (htrace : t.trace = s.trace ++ ev) (hnone : snapshots ev = []) : PublishesWholeFrames s t :=
  ⟨ev, htrace, by simp [hnone]⟩

theorem PublishesWholeFrames.of_trace_eq {s t : State} (h : t.trace = s.trace) :
    PublishesWholeFrames s t :=
  .of_no_snapshot [] (by simp [h]) rfl

theorem iterate_publishesWholeFrames {ready : Bool} {now : Clock} {s t : State}
    (hcount : s.acqState = .await → s.byteCount ≤ 31) (hs : s.frameReady = false)
    (h : iterate ready now s = .ok t) : PublishesWholeFrames s t := by
  obtain ⟨-, rfl⟩ | ⟨-, drained, hdrain, rfl⟩ := iterate_ok_cases h
  · exact .of_no_snapshot _ rfl rfl
  have hd := drain_ok_drained hcount hdrain
  have htrace := iteration_trace now hdrain
  by_cases hcompletes : s.acqState = .await ∧ s.byteCount + drainCount s = 32
  · obtain ⟨hawait, hwhole⟩ := (drainCount_completes_iff hcount).1 hcompletes
    refine ⟨_, htrace, fun x hx => ⟨hawait, hwhole, ?_⟩⟩
    rw [snapshots_iterationEvents_whole now hd hcompletes] at hx
    exact List.mem_singleton.1 hx
  · exact .of_no_snapshot _ htrace (snapshots_iterationEvents_partial now hd hcompletes hs)

/-- Of the host events only an iteration publishes. -/
theorem exec_event_publishesWholeFrames {i : Instr} {s t : State}
    (hcount : s.acqState = .await → s.byteCount ≤ 31) (hs : s.frameReady = false)
    (hi : i.isEvent = true) (h : exec i s = .next t) : PublishesWholeFrames s t := by
  cases i with
  | iter => exact iterate_publishesWholeFrames hcount hs (outcomeOf_next h)
  | rxArrive data => cases h; exact .of_trace_eq (rxAppend_trace data s)
  | cfgScanPeriod seconds =>
    cases h
    obtain ⟨-, h⟩ | ⟨-, h⟩ := setScanPeriod_cases seconds s <;> rw [h]
    · exact .of_trace_eq rfl
    · exact .of_no_snapshot _ rfl rfl
  | cfgRawPublish value =>
    cases h
    obtain ⟨-, h⟩ | ⟨-, h⟩ | ⟨-, h⟩ := setRawPublish_cases value s <;> rw [h]
    · exact .of_trace_eq rfl
    · exact .of_trace_eq rfl
    · exact .of_no_snapshot _ rfl rfl
  | reset => cases h; exact .of_trace_eq rfl
  | _ => cases hi

/-- Settles O55: the word a host step performs is an event, and taking it from the port changes nothing a
snapshot is made of. -/
theorem snapshotsComeFromWholeFrames : Obligations.SnapshotsComeFromWholeFrames := by
  intro s t hs hstep
  obtain ⟨-, rfl⟩ | ⟨code, rest, i, hp, hd, hexec⟩ | ⟨_, _, _, -, -, rfl⟩ := step_next_cases hstep
  · exact PublishesWholeFrames.of_trace_eq rfl
  · obtain ⟨hcode, -⟩ := List.forall_mem_cons.1 (hp ▸ hs.host_words)
    have hevent : i.isEvent = true := (decode_wf hd).2.trans hcode
    exact exec_event_publishesWholeFrames (s := { s with port := rest }) hs.core.await_count
      hs.not_ready hevent hexec
  · exact PublishesWholeFrames.of_trace_eq rfl

end Sys2Proof.Machine
end

section
/-! PROOFS. The statements about 42_status_decoder.md: the functions of the Status Decoder, the operations
that return them, and the string of a temperature at the publisher's boundary (R195). -/

namespace Sys2Proof.Machine

/-! ### Flags and the pressure choice -/

/-- A mask of one bit tests that bit (40_byte_decoder.md R136). -/
theorem flagTest_twoPow (byte : Byte) {k : Nat} (hk : k < 8) :
    flagTest byte (BitVec.twoPow 8 k) = byte.getLsbD k := by
  have hbits : (∀ i < 8, (BitVec.twoPow 8 k).getLsbD i = true → byte.getLsbD i = true) ↔
      byte.getLsbD k = true := by
    simp only [BitVec.getLsbD_twoPow, Bool.and_eq_true, decide_eq_true_eq]
    exact ⟨fun h => h k hk ⟨hk, rfl⟩, fun h i _ hi => hi.2 ▸ h⟩
  rw [Bool.eq_iff_iff, flagTest_eq_true, and_eq_right_iff_getLsbD, hbits]

theorem hasPressureSensor_eq (b28 : Byte) : hasPressureSensor b28 = b28.getLsbD 5 :=
  flagTest_twoPow b28 (show 5 < 8 by decide)

theorem openthermActive_eq (b26 : Byte) : openthermActive b26 = b26.getLsbD 7 :=
  flagTest_twoPow b26 (show 7 < 8 by decide)

theorem pumpRunning_eq (b26 : Byte) : pumpRunning b26 = b26.getLsbD 3 :=
  flagTest_twoPow b26 (show 3 < 8 by decide)

/-- Under `INTENDED` the flag is the negated test of bit 7 (R184). -/
theorem faultFlag_intended (b27 : Byte) : faultFlag .intended b27 = !b27.getLsbD 7 := by
  have hmask : flagTest b27 0x80 = b27.getLsbD 7 := flagTest_twoPow b27 (show 7 < 8 by decide)
  rw [← hmask]
  exact decide_not

theorem faultFlag_sourceLiteral (b27 : Byte) : faultFlag .sourceLiteral b27 = false := rfl

theorem faultFlag_of_clear {b27 : Byte} (h : b27.getLsbD 7 = false) :
    faultFlag .intended b27 = true := by
  rw [faultFlag_intended, h, Bool.not_false]

/-- A set bit 7 means no fault under either polarity (R184). -/
theorem faultFlag_of_set (p : FaultPolarity) {b27 : Byte} (h : b27.getLsbD 7 = true) :
    faultFlag p b27 = false := by
  cases p with
  | intended => rw [faultFlag_intended, h, Bool.not_true]
  | sourceLiteral => exact faultFlag_sourceLiteral b27

/-- Settles O23: each operand of `PRESSURE_SELECT` is one branch of the definition. -/
theorem pressureSelectUsesTheSentinel : Obligations.PressureSelectUsesTheSentinel :=
  fun _ _ => ⟨rfl, rfl⟩

/-- Settles O24: the flag's value under each polarity. -/
theorem faultFlagUnderBothPolarities : Obligations.FaultFlagUnderBothPolarities := by
  intro b27 s
  refine ⟨faultFlag s.cfg.faultPolarity b27, rfl, fun hpolarity => ?_, fun hpolarity => ?_⟩
  · rw [hpolarity, faultFlag_intended, Bool.not_eq_true']
  · rw [hpolarity, faultFlag_sourceLiteral]

/-! ### `STATUS_EXTEND` -/

/-- The nine bits hold the widened fault code: `256 + f <= 511` (R185). -/
theorem statusExtend_fault_toNat (r f : Byte) :
    (statusExtend r f true).1.toNat = 256 + f.toNat := by
  have hcode : (statusExtend r f true).1 = 256#9 + f.setWidth 9 := rfl
  bv_omega

theorem statusExtend_plain_toNat (r f : Byte) : (statusExtend r f false).1.toNat = r.toNat :=
  BitVec.toNat_setWidth_of_le (by decide)

/-- Settles O25: the value of the status code with a fault and without one. -/
theorem statusExtendWidensOnFault : Obligations.StatusExtendWidensOnFault :=
  fun r f _ => ⟨(statusExtend r f true).1, rfl, statusExtend_fault_toNat r f,
    (statusExtend r f false).1, rfl, statusExtend_plain_toNat r f⟩

/-! ### Decimal numbers -/

theorem decimalDigits_of_lt_ten (fuel : Nat) {n : Nat} (h : n < 10) :
    decimalDigits (fuel + 1) n = [digitChar n] := by
  rw [decimalDigits, if_pos h, Nat.mod_eq_of_lt h, hexTable_getD n (by omega), List.nil_append]

theorem decimalDigits_of_ten_le (fuel : Nat) {n : Nat} (h : 10 ≤ n) :
    decimalDigits (fuel + 1) n = decimalDigits fuel (n / 10) ++ [digitChar (n % 10)] := by
  rw [decimalDigits, if_neg (Nat.not_lt.2 h), hexTable_getD (n % 10) (by omega)]

/-- The bound on the digits' count does not show in the result: any two that exceed the number agree. -/
theorem decimalDigits_fuel_irrelevant {fuel fuel' n : Nat} (h : n < fuel) (h' : n < fuel') :
    decimalDigits fuel n = decimalDigits fuel' n := by
  induction fuel generalizing fuel' n with
  | zero => omega
  | succ fuel ih =>
    obtain ⟨fuel', rfl⟩ := Nat.exists_eq_succ_of_ne_zero (Nat.ne_zero_of_lt h')
    rcases Nat.lt_or_ge n 10 with hlt | hge
    · rw [decimalDigits_of_lt_ten fuel hlt, decimalDigits_of_lt_ten fuel' hlt]
    · rw [decimalDigits_of_ten_le fuel hge, decimalDigits_of_ten_le fuel' hge,
        ih (by omega : n / 10 < fuel) (by omega : n / 10 < fuel')]

theorem decimal_of_lt_ten {n : Nat} (h : n < 10) : decimal n = [digitChar n] :=
  decimalDigits_of_lt_ten n h

theorem decimal_of_ten_le {n : Nat} (h : 10 ≤ n) :
    decimal n = decimal (n / 10) ++ [digitChar (n % 10)] := by
  rw [decimal, decimalDigits_of_ten_le n h, decimal,
    decimalDigits_fuel_irrelevant (by omega : n / 10 < n) (Nat.lt_succ_self (n / 10))]

/-- Below 1000 the recursion on the digits gives at most three, the first of them not zero. -/
theorem decimal_eq_decimal3 {n : Nat} (h : n < 1000) : decimal n = decimal3 n := by
  unfold decimal3
  split_ifs with hone htwo
  · exact decimal_of_lt_ten hone
  · rw [decimal_of_ten_le (by omega), decimal_of_lt_ten (by omega)]
    rfl
  · rw [decimal_of_ten_le (by omega), decimal_of_ten_le (by omega), decimal_of_lt_ten (by omega),
      Nat.div_div_eq_div_mul]
    rfl

/-- Settles O58: the whole degrees have at most three digits, and the hundredths are two. -/
theorem temperatureStringHasTwoDigits : Obligations.TemperatureStringHasTwoDigits := by
  intro raw hlo hhi
  have hdegrees : raw.natAbs / 100 < 1000 := by omega
  have htenths : raw.natAbs % 100 / 10 < 16 := by omega
  have hunits : raw.natAbs % 100 % 10 < 16 := by omega
  rw [← decimal_eq_decimal3 hdegrees, ← hexTable_getD _ htenths, ← hexTable_getD _ hunits,
    Nat.mod_mod_of_dvd _ (by decide : 10 ∣ 100)]
  rfl

/-! ### `DESC_LOOKUP` -/

/-- The fallback text of every code beside the table (R188): nine bits do not reach entry 999 (R189). -/
theorem descLookup_fallback {c : BitVec 9} (h : c.toNat ∉ [51, 102, 126, 204, 231]) :
    descLookup c = (.code, ['C', 'o', 'd', 'e', ' '] ++ decimal3 c.toNat) := by
  have hlt : c.toNat < 512 := c.isLt
  have h999 : c.toNat ≠ 999 := by omega
  simp only [List.mem_cons, List.not_mem_nil, or_false, not_or] at h
  simp [descLookup, h, h999, decimal_eq_decimal3 (by omega : c.toNat < 1000)]

theorem descLookup_sel_ne_status999 (c : BitVec 9) : (descLookup c).1 ≠ .status999 := by
  by_cases h : c.toNat ∈ [51, 102, 126, 204, 231]
  · simp only [List.mem_cons, List.not_mem_nil, or_false] at h
    rcases h with h | h | h | h | h <;> simp [descLookup, h]
  · simp [descLookup_fallback h]

/-- Settles O26: the entry of each table code, and the two lemmas about every code. -/
theorem descLookupMatchesExactly : Obligations.DescLookupMatchesExactly := by
  intro c s
  refine ⟨(descLookup c).1, (descLookup c).2, rfl,
    fun h => ?_, fun h => ?_, fun h => ?_, fun h => ?_, fun h => ?_,
    fun h => Prod.ext_iff.1 (descLookup_fallback h), descLookup_sel_ne_status999 c⟩
  all_goals simp [descLookup, h]

/-! ### `HEX_ECHO` -/

/-- Where every piece has `k` entries, entry `k * i + j` of the whole is entry `j` of piece `i`. -/
theorem getElem?_flatMap_of_length {α β : Type} {f : α → List β} (xs : List α) {k : Nat} (i : Nat)
    {j : Nat} (hj : j < k) (hf : ∀ a, (f a).length = k) :
    (xs.flatMap f)[k * i + j]? = xs[i]?.bind fun a => (f a)[j]? := by
  induction xs generalizing i with
  | nil => simp
  | cons x xs ih =>
    rw [List.flatMap_cons]
    cases i with
    | zero =>
      rw [Nat.mul_zero, Nat.zero_add, List.getElem?_append_left (by rwa [hf])]
      rfl
    | succ i =>
      have hpos : k * (i + 1) + j - k = k * i + j := by rw [Nat.mul_succ]; omega
      rw [List.getElem?_append_right (by rw [hf, Nat.mul_succ]; omega), hf, hpos, ih,
        List.getElem?_cons_succ]

/-- The upper four bits shifted down are an index of the table. -/
theorem hexDigit_ushiftRight (b : Byte) : hexDigit (b >>> 4) = digitChar (b.toNat / 16) := by
  rw [hexDigit_eq_digitChar, BitVec.toNat_ushiftRight, Nat.shiftRight_eq_div_pow]
  congr 1
  omega

theorem hexEcho_length (frame : Frame) : (hexEcho frame).length = 96 := by
  simp [hexEcho, List.length_flatMap]

theorem hexEcho_getElem? (frame : Frame) (i : Fin 32) {j : Nat} (hj : j < 3) :
    (hexEcho frame)[3 * i.val + j]? =
      [digitChar ((frame i).toNat / 16), digitChar ((frame i).toNat % 16), ' '][j]? := by
  have hpiece : (List.finRange 32)[i.val]? = some i := by simp
  rw [hexEcho, getElem?_flatMap_of_length _ _ hj fun _ => rfl, hpiece, Option.bind_some,
    hexDigit_ushiftRight, hexDigit_eq_digitChar]

/-- Settles O27: the three characters of each byte, at their positions. -/
theorem hexEchoRendersEveryByte : Obligations.HexEchoRendersEveryByte := by
  intro s
  refine ⟨hexEcho (handFrame s), rfl, hexEcho_length _, fun i => ⟨?_, ?_, ?_⟩⟩
  · exact hexEcho_getElem? (handFrame s) i (j := 0) (by decide)
  · exact hexEcho_getElem? (handFrame s) i (j := 1) (by decide)
  · exact hexEcho_getElem? (handFrame s) i (j := 2) (by decide)

/-! ### `DECODE_FRAME` -/

/-- A measurement is the 16-bit value of its pair (R182, 40_byte_decoder.md R131). -/
theorem fx_eq (frame : Frame) (k : Fin 12) :
    fx frame k = ⟨(frame (msbOffset k) ++ frame (lsbOffset k) : BitVec 16).toInt, -2⟩ :=
  fxpDecode_eq_fixedPoint _ _

theorem fxpScale_fx_x100 (frame : Frame) (k : Fin 12) :
    fxpScale (fx frame k) .x100 =
      ⟨(frame (msbOffset k) ++ frame (lsbOffset k) : BitVec 16).toInt, 0⟩ := by
  rw [fx_eq, fxpScale]

theorem fxpScale_fx_x10 (frame : Frame) (k : Fin 12) :
    fxpScale (fx frame k) .x10 =
      ⟨(frame (msbOffset k) ++ frame (lsbOffset k) : BitVec 16).toInt, -1⟩ := by
  rw [fx_eq, fxpScale]

/-- The pressure field: pair 6, or the sentinel, by bit 5 of byte 28 (R183, R186). -/
theorem decodeFrame_pressure (p : FaultPolarity) (frame : Frame) :
    (decodeFrame p frame).pressure =
      if (frame 28).getLsbD 5 = true then
        ⟨(frame (msbOffset 6) ++ frame (lsbOffset 6) : BitVec 16).toInt, -2⟩
      else ⟨-3500, -2⟩ := by
  rw [← fx_eq, ← hasPressureSensor_eq]
  rfl

/-- The two code fields, by the flag of byte 27 (R181, R185). -/
theorem decodeFrame_status (p : FaultPolarity) (frame : Frame) {fault : Bool}
    (h : faultFlag p (frame 27) = fault) :
    (decodeFrame p frame).statusCode = (statusExtend (frame 24) (frame 29) fault).1 ∧
    (decodeFrame p frame).faultCode = (statusExtend (frame 24) (frame 29) fault).2 :=
  h ▸ ⟨rfl, rfl⟩

theorem decodeFrame_status_of_fault {p : FaultPolarity} {frame : Frame}
    (h : p = .intended ∧ (frame 27).getLsbD 7 = false) :
    (decodeFrame p frame).statusCode.toNat = 256 + (frame 29).toNat ∧
    (decodeFrame p frame).faultCode = frame 29 := by
  obtain ⟨rfl, h27⟩ := h
  have hfault : faultFlag .intended (frame 27) = true := faultFlag_of_clear h27
  obtain ⟨hstatus, hcode⟩ := decodeFrame_status .intended frame hfault
  exact ⟨hstatus ▸ statusExtend_fault_toNat _ _, hcode⟩

theorem decodeFrame_status_of_no_fault {p : FaultPolarity} {frame : Frame}
    (h : p = .sourceLiteral ∨ (frame 27).getLsbD 7 = true) :
    (decodeFrame p frame).statusCode.toNat = (frame 24).toNat ∧
    (decodeFrame p frame).faultCode = 0 := by
  have hfault : faultFlag p (frame 27) = false := by
    rcases h with rfl | h27
    · rfl
    · exact faultFlag_of_set p h27
  obtain ⟨hstatus, hcode⟩ := decodeFrame_status p frame hfault
  exact ⟨hstatus ▸ statusExtend_plain_toNat _ _, hcode⟩

/-- Settles O28: the fields in the order of the statement, each by the rule it follows. -/
theorem decodeFrameGivesEveryField : Obligations.DecodeFrameGivesEveryField := by
  intro s
  have measured := fx_eq (handFrame s)
  have hundredfold := fxpScale_fx_x100 (handFrame s)
  exact ⟨snapshotOf s, rfl,
    measured 0, measured 1, measured 2, measured 3, measured 4, measured 5,
    decodeFrame_pressure _ _, measured 7,
    hundredfold 8, hundredfold 9, fxpScale_fx_x10 _ 10, measured 11,
    decodeFrame_status_of_fault, decodeFrame_status_of_no_fault, rfl, rfl,
    hasPressureSensor_eq _, openthermActive_eq _, pumpRunning_eq _, rfl, rfl⟩

/-- What the snapshot depends on but for its raw rendering: the bytes other than 24, 25, 29, 30, 31, and
the codes that bytes 24, 27 and 29 give together (R193). -/
theorem decodeFrame_congr {p : FaultPolarity} {a b : Frame}
    (hsame : ∀ i : Fin 32, i ≠ 24 → i ≠ 29 → i ≠ 25 → i ≠ 30 → i ≠ 31 → a i = b i)
    (hstatus : statusExtend (a 24) (a 29) (faultFlag p (a 27)) =
      statusExtend (b 24) (b 29) (faultFlag p (b 27))) :
    { decodeFrame p a with rawHex := [] } = { decodeFrame p b with rawHex := [] } := by
  have hpairs : ∀ i : Fin 32, i < 24 → a i = b i := fun i hi =>
    hsame i (by omega) (by omega) (by omega) (by omega) (by omega)
  have hfx : ∀ k, fx a k = fx b k := fun k => by
    have hmsb : msbOffset k < 24 := Fin.lt_def.2 (show 2 * k.val + 1 < 24 by omega)
    have hlsb : lsbOffset k < 24 := Fin.lt_def.2 (show 2 * k.val < 24 by omega)
    rw [fx, fx, hpairs _ hmsb, hpairs _ hlsb]
  have h26 : a 26 = b 26 := by apply hsame <;> decide
  have h28 : a 28 = b 28 := by apply hsame <;> decide
  simp only [decodeFrame, hfx, h26, h28, hstatus]

/-- Settles O29: with a fault the codes do not depend on byte 24, without one not on byte 29. -/
theorem undecodedBytesShowOnlyInRawHex : Obligations.UndecodedBytesShowOnlyInRawHex := by
  refine ⟨fun p a b hsame => ?_, fun a b h27 hsame => ?_, fun a b h27 hsame => ?_⟩
  · refine decodeFrame_congr (fun i _ _ => hsame i) ?_
    rw [hsame 24, hsame 27, hsame 29] <;> decide
  · refine decodeFrame_congr (fun i h24 _ => hsame i h24) ?_
    have hfault : faultFlag .intended (a 27) = true := faultFlag_of_clear h27
    have h29 : a 29 = b 29 := by apply hsame <;> decide
    have hbyte27 : a 27 = b 27 := by apply hsame <;> decide
    rw [← hbyte27, hfault, h29]
    rfl
  · refine decodeFrame_congr (fun i _ => hsame i) ?_
    have hfault : faultFlag .intended (a 27) = false := faultFlag_of_set _ h27
    have h24 : a 24 = b 24 := by apply hsame <;> decide
    have hbyte27 : a 27 = b 27 := by apply hsame <;> decide
    rw [← hbyte27, hfault, h24]
    rfl

end Sys2Proof.Machine
end

section
/-! PROOFS. The statements about 43_poll_scheduler.md: its operations one by one, the setters, the anchors
of an instruction (R215), and the stages and the frame of an iteration (R210, R211). -/

namespace Sys2Proof.Machine

/-! ### Each operation by itself -/

/-- Settles O40: the request of `SCHED_CHECK` is that of `REQ_ISSUE` in `IDLE`. -/
theorem schedCheckIssuesWhenDue : Obligations.SchedCheckIssuesWhenDue := by
  intro now s
  refine ⟨fun ⟨hidle, hdue⟩ => congrArg Host.Outcome.next ?_,
    fun hnot => congrArg Host.Outcome.next (schedCheck_not_due now s hnot)⟩
  rw [schedCheck_due now s hidle hdue, reqIssue_idle now s hidle]

theorem publishedEvents_of_raw {s : State} (h : s.rawPublishEn = true) :
    publishedEvents s = [.snap (snapshotOf s), .raw (snapshotOf s).rawHex] := by
  rw [publishedEvents, if_pos h]

theorem publishedEvents_of_not_raw {s : State} (h : s.rawPublishEn = false) :
    publishedEvents s = [.snap (snapshotOf s)] := by
  rw [publishedEvents, h, if_neg Bool.false_ne_true]

/-- Settles O42: what `DECODE_PUBLISH` appends under either setting, and that it waits for a frame. -/
theorem decodePublishEmitsTheSnapshot : Obligations.DecodePublishEmitsTheSnapshot := by
  intro s
  refine ⟨fun hready hraw => ?_, fun hready hraw => ?_,
    fun hnot => congrArg Host.Outcome.next (decodePublish_not_ready s hnot)⟩
  · rw [exec, execDecodePublish, decodePublish_ready s hready, publishedEvents_of_raw hraw]
    rfl
  · rw [exec, execDecodePublish, decodePublish_ready s hready, publishedEvents_of_not_raw hraw]
    rfl

/-- Settles O43: the branch of an iteration with the transport not ready. -/
theorem notReadyIterationOnlyReports : Obligations.NotReadyIterationOnlyReports :=
  fun now s => congrArg outcomeOf (iterate_not_ready now s)

/-! ### The setters -/

/-- The milliseconds of an accepted number of seconds fit the 32 bits that hold them (R224). -/
theorem scanPeriod_toNat {c : Config} (hc : c.Wf) {w : BitVec 32}
    (h : 2 ≤ w.toInt ∧ w.toInt ≤ (scanSMax c : Int)) :
    ((BitVec.ofInt 32 (w.toInt * 1000)).toNat : Int) = w.toInt * 1000 := by
  have hfits := (scanSMax_mul_lt c hc w.toInt.toNat (by omega)).2
  rw [BitVec.toNat_ofInt]
  omega

/-- Settles O47: the two cases of the setter, and the exact value of an accepted period. -/
theorem cfgScanPeriodValidates : Obligations.CfgScanPeriodValidates := by
  intro w s hc
  exact ⟨fun haccepted => ⟨_, congrArg Host.Outcome.next (setScanPeriod_accepted w s haccepted),
      scanPeriod_toNat hc haccepted⟩,
    fun hrejected => congrArg Host.Outcome.next (setScanPeriod_rejected w s hrejected)⟩

/-- Settles O49: the three cases of the setter exclude each other. -/
theorem cfgRawPublishValidates : Obligations.CfgRawPublishValidates := by
  intro w s
  obtain ⟨rfl, h⟩ | ⟨rfl, h⟩ | ⟨hge, h⟩ := setRawPublish_cases w s
  · exact ⟨fun _ => congrArg Host.Outcome.next h, by simp, by simp⟩
  · exact ⟨by simp, fun _ => congrArg Host.Outcome.next h, by simp⟩
  · exact ⟨by omega, by omega, fun _ => congrArg Host.Outcome.next h⟩

/-- Settles O50: in each of their cases the setters write a setting or the trace. -/
theorem reconfigurationLeavesTheAssembler : Obligations.ReconfigurationLeavesTheAssembler := by
  rintro i s t (⟨w, rfl⟩ | ⟨w, rfl⟩) hexec <;> cases hexec
  · obtain ⟨-, h⟩ | ⟨-, h⟩ := setScanPeriod_cases w s <;> rw [h] <;>
      exact ⟨rfl, rfl, fun _ => rfl, fun _ => rfl, rfl, rfl, rfl, rfl⟩
  · obtain ⟨-, h⟩ | ⟨-, h⟩ | ⟨-, h⟩ := setRawPublish_cases w s <;> rw [h] <;>
      exact ⟨rfl, rfl, fun _ => rfl, fun _ => rfl, rfl, rfl, rfl, rfl⟩

/-! ### What is sent, and the anchors -/

/-- From `s` to `t` no byte was sent and neither anchor moved. -/
structure Silent (s t : State) : Prop where
  sends : Sends [] s t
  lastRequest : t.lastRequest = s.lastRequest
  deadlineAnchor : t.deadlineAnchor = s.deadlineAnchor

/-- From `s` to `t` a request was sent, and both anchors stand at the clock sample `now`. -/
structure Requested (now : Clock) (s t : State) : Prop where
  sends : Sends requestBytes s t
  lastRequest : t.lastRequest = now
  deadlineAnchor : t.deadlineAnchor = now

theorem Silent.refl (s : State) : Silent s s := ⟨.of_trace_eq rfl, rfl, rfl⟩

theorem Silent.trans {s t u : State} (hst : Silent s t) (htu : Silent t u) : Silent s u :=
  ⟨hst.sends.trans htu.sends, htu.lastRequest.trans hst.lastRequest,
    htu.deadlineAnchor.trans hst.deadlineAnchor⟩

/-- What sends nothing may come before a request. -/
theorem Silent.trans_requested {now : Clock} {s t u : State} (hst : Silent s t)
    (htu : Requested now t u) : Requested now s u :=
  ⟨hst.sends.trans htu.sends, htu.lastRequest, htu.deadlineAnchor⟩

/-- What sends nothing may come after a request. -/
theorem Requested.trans_silent {now : Clock} {s t u : State} (hst : Requested now s t)
    (htu : Silent t u) : Requested now s u :=
  ⟨hst.sends.trans htu.sends, htu.lastRequest.trans hst.lastRequest,
    htu.deadlineAnchor.trans hst.deadlineAnchor⟩

theorem drain_silent {s t : State} (h : drain s = .ok t) : Silent s t := by
  obtain hd | ⟨-, -, -, rfl⟩ := drain_ok_cases h
  · exact ⟨drain_sends h, hd.lastRequest, hd.deadlineAnchor⟩
  · exact .refl _

theorem rxAccept_silent {b : Byte} {s t : State} (h : rxAccept b s = .ok t) : Silent s t := by
  have hsends := rxAccept_sends h
  obtain ⟨-, ⟨-, rfl⟩ | ⟨-, rfl⟩⟩ := rxAccept_ok_cases h <;> exact ⟨hsends, rfl, rfl⟩

theorem frameComplete_silent {s t : State} (h : frameComplete s = .ok t) : Silent s t := by
  have hsends := frameComplete_sends h
  obtain ⟨-, rfl⟩ := frameComplete_ok_cases h
  exact ⟨hsends, rfl, rfl⟩

theorem timeoutCheck_silent (now : Clock) (s : State) : Silent s (timeoutCheck now s) := by
  refine ⟨timeoutCheck_sends now s, ?_, ?_⟩ <;>
    obtain ⟨-, h⟩ | ⟨-, h⟩ := timeoutCheck_cases now s <;> rw [h]

theorem decodePublish_silent (s : State) : Silent s (decodePublish s) := by
  refine ⟨decodePublish_sends s, ?_, ?_⟩ <;>
    obtain ⟨-, h⟩ | ⟨-, h⟩ := decodePublish_cases s <;> rw [h]

/-- The period's setter leaves the anchors with the rest of the assembler (R227). -/
theorem setScanPeriod_silent (w : BitVec 32) (s : State) : Silent s (setScanPeriod w s) := by
  obtain ⟨-, -, -, -, -, -, hdeadline, hlast⟩ :=
    reconfigurationLeavesTheAssembler _ s _ (.inl ⟨w, rfl⟩) rfl
  exact ⟨setScanPeriod_sends w s, hlast, hdeadline⟩

/-- So does the setter of raw publishing (R227). -/
theorem setRawPublish_silent (w : BitVec 32) (s : State) : Silent s (setRawPublish w s) := by
  obtain ⟨-, -, -, -, -, -, hdeadline, hlast⟩ :=
    reconfigurationLeavesTheAssembler _ s _ (.inr ⟨w, rfl⟩) rfl
  exact ⟨setRawPublish_sends w s, hlast, hdeadline⟩

theorem reqIssue_silent_or_requested (now : Clock) (s : State) :
    Silent s (reqIssue now s) ∨ Requested now s (reqIssue now s) := by
  obtain ⟨-, h⟩ | ⟨-, h⟩ := reqIssue_cases now s <;> rw [h]
  · exact .inr ⟨⟨requestEvents, rfl, rfl⟩, rfl, rfl⟩
  · exact .inl (.refl s)

theorem schedCheck_silent_or_requested (now : Clock) (s : State) :
    Silent s (schedCheck now s) ∨ Requested now s (schedCheck now s) := by
  unfold schedCheck
  split
  · exact reqIssue_silent_or_requested now s
  · exact .inl (.refl s)

/-- An iteration moves the anchors in its scheduling stage alone, where it sends (R213, R215). -/
theorem iterate_silent_or_requested {ready : Bool} {now : Clock} {s t : State}
    (h : iterate ready now s = .ok t) : Silent s t ∨ (ready = true ∧ Requested now s t) := by
  obtain ⟨-, rfl⟩ | ⟨hready, drained, hdrain, rfl⟩ := iterate_ok_cases h
  · exact .inl ⟨⟨_, rfl, rfl⟩, rfl, rfl⟩
  · have hchecked := (drain_silent hdrain).trans (timeoutCheck_silent now drained)
    have hpublish := decodePublish_silent (schedCheck now (timeoutCheck now drained))
    obtain hsched | hsched := schedCheck_silent_or_requested now (timeoutCheck now drained)
    · exact .inl ((hchecked.trans hsched).trans hpublish)
    · exact .inr ⟨hready, (hchecked.trans_requested hsched).trans_silent hpublish⟩

/-- Every instruction but `RESET` is silent, or it is one that carries a clock sample and sends a request
at it. -/
theorem exec_silent_or_requested {i : Instr} {s t : State} (hi : i ≠ .reset)
    (h : exec i s = .next t) :
    Silent s t ∨
      ∃ now, (i = .iter true now ∨ i = .schedCheck now ∨ i = .reqIssue now) ∧
        Requested now s t := by
  cases i with
  | iter ready now =>
    obtain hsilent | ⟨rfl, hrequest⟩ := iterate_silent_or_requested (outcomeOf_next h)
    · exact .inl hsilent
    · exact .inr ⟨now, .inl rfl, hrequest⟩
  | schedCheck now =>
    cases h
    exact (schedCheck_silent_or_requested now s).imp_right fun hrequest =>
      ⟨now, .inr (.inl rfl), hrequest⟩
  | reqIssue now =>
    cases h
    exact (reqIssue_silent_or_requested now s).imp_right fun hrequest =>
      ⟨now, .inr (.inr rfl), hrequest⟩
  | reset => exact absurd rfl hi
  | drain => exact .inl (drain_silent (outcomeOf_next h))
  | rxAccept => exact .inl (rxAccept_silent (outcomeOf_next h))
  | frameComplete => exact .inl (frameComplete_silent (outcomeOf_next h))
  | rxArrive data =>
    cases h
    exact .inl ⟨.of_trace_eq (rxAppend_trace data s), rxAppend_lastRequest data s,
      rxAppend_deadlineAnchor data s⟩
  | cfgScanPeriod => cases h; exact .inl (setScanPeriod_silent _ s)
  | cfgRawPublish => cases h; exact .inl (setRawPublish_silent _ s)
  | timeoutCheck => cases h; exact .inl (timeoutCheck_silent _ s)
  | decodePublish => cases h; exact .inl (decodePublish_silent s)
  | fxpDecode | fxpScale | flagTest | hexDigit | decodeFrame | pressureSelect | faultFlag
  | statusExtend | descLookup | hexEcho => cases h; exact .inl ⟨.of_trace_eq rfl, rfl, rfl⟩

/-- Settles O53: a silent instruction keeps the anchors; one that sends sets them to its clock sample. -/
theorem anchorMovesExactlyOnARequest : Obligations.AnchorMovesExactlyOnARequest := by
  intro i s t hi h
  obtain ⟨⟨ev, htrace, hnone⟩, hlast, hdeadline⟩ |
    ⟨now, hform, ⟨ev, htrace, hrequest⟩, hlast, hdeadline⟩ := exec_silent_or_requested hi h
  · exact ⟨ev, htrace, fun _ => ⟨hlast, hdeadline⟩, fun hsent => absurd hnone hsent⟩
  · refine ⟨ev, htrace, fun hnone => ?_, fun _ => ⟨now, hform, hlast, hdeadline⟩⟩
    rw [hrequest] at hnone
    cases hnone

/-! ### The stages of an iteration -/

/-- Settles O44: `DRAIN` answers under the bound of R32, and the later stages always do. -/
theorem iterationRunsItsStagesInOrder : Obligations.IterationRunsItsStagesInOrder := by
  intro now s hcount
  obtain ⟨drained, hdrain, -⟩ := drain_spec s hcount
  exact ⟨drained, _, _, _, congrArg outcomeOf hdrain, rfl, rfl, rfl,
    congrArg outcomeOf (iterate_ready now s drained hdrain), notReadyIterationOnlyReports now s⟩

/-- `SCHED_CHECK` does nothing while a response is outstanding (R214). -/
theorem schedCheck_await (now : Clock) {s : State} (h : s.acqState = .await) :
    schedCheck now s = s :=
  schedCheck_not_due now s fun ⟨hidle, _⟩ => nomatch h.symm.trans hidle

/-- Settles O41: `DRAIN` stays in `AWAIT` short of a frame, the two checks then do nothing, and what
remains of the iteration is silent. -/
theorem noRequestWhileAwaiting : Obligations.NoRequestWhileAwaiting := by
  intro now s hawait hshort hearly
  have hcount : s.acqState = .await → s.byteCount ≤ 31 := fun _ => by omega
  obtain ⟨drained, hdrain, hd⟩ := drain_spec s hcount
  have hpartial : ¬(s.acqState = .await ∧ s.byteCount + drainCount s = 32) := fun h =>
    absurd ((drainCount_completes_iff hcount).1 h).2 (Nat.not_le.2 hshort)
  obtain ⟨hstays, -, -⟩ := hd.partial_frame hpartial
  have hchecked : timeoutCheck now drained = drained := by
    refine timeoutCheck_not_due now drained fun ⟨_, hlate⟩ => ?_
    rw [hd.cfg, hd.deadlineAnchor] at hlate
    omega
  have hiter : iterate true now s = .ok (decodePublish drained) := by
    rw [iterate_ready now s drained hdrain, hchecked, schedCheck_await now (hstays.trans hawait)]
  obtain ⟨hsends, hlast, -⟩ := (drain_silent hdrain).trans (decodePublish_silent drained)
  exact ⟨decodePublish drained, congrArg outcomeOf hiter,
    (decodePublish_acqState drained).trans (hstays.trans hawait), hlast, hsends⟩

/-! ### What an iteration leaves unchanged -/

/-- `t` has the configuration, the mark and the model's own fields of `s`. -/
structure SameSettings (s t : State) : Prop extends SameOutside s t where
  scanPeriodMs : t.scanPeriodMs = s.scanPeriodMs
  rawPublishEn : t.rawPublishEn = s.rawPublishEn
  result : t.result = s.result
  epoch : t.epoch = s.epoch

/-- `t` has both byte buffers of `s`, too. -/
structure SameBuffers (s t : State) : Prop extends SameSettings s t where
  frameBuf : t.frameBuf = s.frameBuf
  handBuf : t.handBuf = s.handBuf

theorem SameBuffers.refl (s : State) : SameBuffers s s :=
  ⟨⟨⟨rfl, rfl, rfl⟩, rfl, rfl, rfl, rfl⟩, rfl, rfl⟩

theorem SameSettings.trans {s t u : State} (hst : SameSettings s t) (htu : SameSettings t u) :
    SameSettings s u :=
  ⟨⟨htu.cfg.trans hst.cfg, htu.port.trans hst.port, htu.refused.trans hst.refused⟩,
    htu.scanPeriodMs.trans hst.scanPeriodMs, htu.rawPublishEn.trans hst.rawPublishEn,
    htu.result.trans hst.result, htu.epoch.trans hst.epoch⟩

theorem SameBuffers.trans {s t u : State} (hst : SameBuffers s t) (htu : SameBuffers t u) :
    SameBuffers s u :=
  ⟨hst.toSameSettings.trans htu.toSameSettings, htu.frameBuf.trans hst.frameBuf,
    htu.handBuf.trans hst.handBuf⟩

theorem timeoutCheck_sameBuffers (now : Clock) (s : State) :
    SameBuffers s (timeoutCheck now s) := by
  obtain ⟨-, h⟩ | ⟨-, h⟩ := timeoutCheck_cases now s <;> rw [h] <;>
    exact ⟨⟨⟨rfl, rfl, rfl⟩, rfl, rfl, rfl, rfl⟩, rfl, rfl⟩

theorem schedCheck_sameBuffers (now : Clock) (s : State) : SameBuffers s (schedCheck now s) := by
  obtain ⟨-, h⟩ | ⟨-, h⟩ := schedCheck_cases now s <;> rw [h] <;>
    exact ⟨⟨⟨rfl, rfl, rfl⟩, rfl, rfl, rfl, rfl⟩, rfl, rfl⟩

theorem decodePublish_sameBuffers (s : State) : SameBuffers s (decodePublish s) := by
  obtain ⟨-, h⟩ | ⟨-, h⟩ := decodePublish_cases s <;> rw [h] <;>
    exact ⟨⟨⟨rfl, rfl, rfl⟩, rfl, rfl, rfl, rfl⟩, rfl, rfl⟩

/-- After `DRAIN` an iteration touches neither the buffers nor the settings (R210). -/
theorem laterStages_sameBuffers (now : Clock) (drained : State) :
    SameBuffers drained (decodePublish (schedCheck now (timeoutCheck now drained))) :=
  ((timeoutCheck_sameBuffers now drained).trans (schedCheck_sameBuffers now _)).trans
    (decodePublish_sameBuffers _)

/-- What `DRAIN` keeps in every state it answers in, and which entries of `frame_buf` among it. -/
theorem drain_ok_kept {s t : State} (h : drain s = .ok t) :
    SameSettings s t ∧
      ∀ i, i < s.byteCount ∨ s.byteCount + drainCount s ≤ i →
        t.frameBuf.read i = s.frameBuf.read i := by
  obtain hd | ⟨-, -, -, rfl⟩ := drain_ok_cases h
  · exact ⟨⟨⟨hd.cfg, hd.port, hd.refused⟩, hd.scanPeriodMs, hd.rawPublishEn, hd.result, hd.epoch⟩,
      hd.kept⟩
  · exact ⟨(SameBuffers.refl _).toSameSettings, fun _ _ => rfl⟩

/-- `DRAIN` hands nothing over in `IDLE` or short of a frame (41_frame_assembler.md R154, R161). -/
theorem drain_handBuf_of_partial {s t : State} (h : drain s = .ok t)
    (hpartial : s.acqState = .idle ∨ s.byteCount + s.rxFifo.length < 32) :
    t.handBuf = s.handBuf := by
  obtain hd | ⟨-, -, -, rfl⟩ := drain_ok_cases h
  · have hnot : ¬(s.acqState = .await ∧ s.byteCount + drainCount s = 32) := by
      rintro ⟨hawait, hfull⟩
      have hshort := hpartial.resolve_left (by simp [hawait])
      rw [drainCount_await hawait] at hfull
      omega
    obtain ⟨-, -, hhand⟩ := hd.partial_frame hnot
    exact hhand
  · rfl

/-- `DRAIN` hands over the whole `frame_buf` where the rest of the frame is buffered
(41_frame_assembler.md R157). -/
theorem drain_handBuf_of_whole {s t : State} (h : drain s = .ok t) (hawait : s.acqState = .await)
    (hcount : s.byteCount ≤ 31) (hwhole : 32 ≤ s.byteCount + s.rxFifo.length) :
    t.handBuf = t.frameBuf := by
  have hcompletes := (drainCount_completes_iff fun _ => hcount).2 ⟨hawait, hwhole⟩
  obtain ⟨-, -, hhand⟩ := (drain_ok_drained (fun _ => hcount) h).whole_frame hcompletes
  exact hhand

/-- Settles O46: with the transport ready, what `DRAIN` leaves unchanged is what the iteration does. -/
theorem iterationFrame : Obligations.IterationFrame := by
  intro ready now s t h
  obtain ⟨rfl, rfl⟩ | ⟨rfl, drained, hdrain, rfl⟩ := iterate_ok_cases (outcomeOf_next h)
  · exact ⟨rfl, rfl, rfl, rfl, rfl, rfl, rfl, fun _ _ => rfl, fun _ => rfl,
      fun hready => nomatch hready⟩
  · obtain ⟨hdrained, hentries⟩ := drain_ok_kept hdrain
    have hlater := laterStages_sameBuffers now drained
    have hsame := hdrained.trans hlater.toSameSettings
    refine ⟨hsame.scanPeriodMs, hsame.rawPublishEn, hsame.refused, hsame.cfg, hsame.port,
      hsame.result, hsame.epoch, fun i hi => ?_, fun hpartial => ?_,
      fun _ hawait hcount hwhole => ?_⟩
    · rw [hlater.frameBuf, hentries i hi]
    · have hkept := drain_handBuf_of_partial hdrain (hpartial.resolve_left Bool.noConfusion)
      exact hlater.handBuf.trans hkept
    · rw [hlater.handBuf, hlater.frameBuf, drain_handBuf_of_whole hdrain hawait hcount hwhole]

end Sys2Proof.Machine
end

section
/-! PROOFS. The statements about 60_exceptions.md: no condition is fatal (R240, R248), the state between
events (R257), and the order of an iteration's output events (R247). -/

namespace Sys2Proof.Machine

/-! ### No condition is fatal -/

/-- Settles O8: the step's case of an empty port. -/
theorem emptyPortHoldsTheState : Obligations.EmptyPortHoldsTheState := step_idle

/-- An iteration answers wherever the bound of 10_state.md R32 holds: only its `DRAIN` could fault. -/
theorem iterate_answers (ready : Bool) (now : Clock) {s : State}
    (hcount : s.acqState = .await → s.byteCount ≤ 31) : ∃ t, iterate ready now s = .ok t := by
  cases ready with
  | false => exact ⟨_, iterate_not_ready now s⟩
  | true =>
    obtain ⟨drained, hdrain, -⟩ := drain_spec s hcount
    exact ⟨_, iterate_ready now s drained hdrain⟩

/-- Every host event answers a next state where the bound of 10_state.md R32 holds. -/
theorem exec_event_answers {i : Instr} {s : State} (hi : i.isEvent = true)
    (hcount : s.acqState = .await → s.byteCount ≤ 31) : ∃ t, exec i s = .next t := by
  cases i with
  | iter ready now =>
    obtain ⟨t, ht⟩ := iterate_answers ready now hcount
    exact ⟨t, congrArg outcomeOf ht⟩
  | rxArrive | cfgScanPeriod | cfgRawPublish | reset => exact ⟨_, rfl⟩
  | _ => cases hi

/-- Settles O16: a host's word is an event word, which is performed as one of the host events or marked. -/
theorem hostStepNeverStops : Obligations.HostStepNeverStops := by
  intro s hs
  cases hp : s.port with
  | nil => exact ⟨s, step_idle s hp⟩
  | cons code rest =>
    obtain ⟨hcode, -⟩ := List.forall_mem_cons.1 (hp ▸ hs.host_words)
    cases code with
    | event w =>
      obtain ⟨i, -, hevent, hstep⟩ | ⟨e, -, hstep⟩ := eventWordIsPerformedOrMarked s w rest hp
      · rw [hstep]
        exact exec_event_answers hevent hs.core.await_count
      · exact ⟨_, hstep⟩
    | micro u => cases hcode

/-! ### The order of an iteration's output events -/

/-- A `DRAIN` that stays in `AWAIT` is short of a frame (41_frame_assembler.md R154). -/
theorem Drained.count_le_of_await {s t : State} (hd : Drained s (drainCount s) t)
    (hcount : s.acqState = .await → s.byteCount ≤ 31) (hawait : t.acqState = .await) :
    t.byteCount ≤ 31 := by
  have hpartial : ¬(s.acqState = .await ∧ s.byteCount + drainCount s = 32) := fun hwhole => by
    obtain ⟨hidle, -, -⟩ := hd.whole_frame hwhole
    cases hidle.symm.trans hawait
  obtain ⟨hstays, -, -⟩ := hd.partial_frame hpartial
  have hs : s.acqState = .await := hstays.symm.trans hawait
  have hle := hcount hs
  have hne : s.byteCount + drainCount s ≠ 32 := fun h => hpartial ⟨hs, h⟩
  rw [drainCount_await hs] at hne
  rw [hd.count, drainCount_await hs]
  omega

/-- `TIMEOUT_CHECK` reports at most one timeout, and that of a partial frame (R241). -/
theorem timeoutEvents_cases (now : Clock) {s : State}
    (hcount : s.acqState = .await → s.byteCount ≤ 31) :
    timeoutEvents now s = [] ∨
      ∃ n, n ≤ 31 ∧ timeoutEvents now s = [.err .timeout (BitVec.ofNat 32 n)] := by
  by_cases hdue : s.acqState = .await ∧ 3000 ≤ delta s.cfg now s.deadlineAnchor
  · exact .inr ⟨s.byteCount, hcount hdue.1, if_pos hdue⟩
  · exact .inl (if_neg hdue)

/-- `SCHED_CHECK` sends the request bytes or nothing (43_poll_scheduler.md R213). -/
theorem scheduledEvents_cases (now : Clock) (s : State) :
    scheduledEvents now s = [] ∨ scheduledEvents now s = requestEvents :=
  (ite_eq_or_eq _ _ _).symm

/-- `DECODE_PUBLISH` publishes nothing, or a snapshot with its raw rendering where enabled
(43_poll_scheduler.md R217). -/
theorem handOverEvents_cases (s : State) :
    handOverEvents s = [] ∨
      ∃ x, handOverEvents s = .snap x :: (if s.rawPublishEn then [.raw x.rawHex] else []) :=
  (ite_eq_or_eq _ _ _).symm.imp_right fun hready => ⟨snapshotOf s, hready⟩

/-- A timeout discards the frame, so nothing is published with it (41_frame_assembler.md R159). -/
theorem timeoutEvents_or_handOverEvents_eq_nil (now : Clock) (s : State) :
    timeoutEvents now s = [] ∨ handOverEvents (schedCheck now (timeoutCheck now s)) = [] := by
  obtain ⟨-, hc⟩ | ⟨hnot, -⟩ := timeoutCheck_cases now s
  · have hdiscarded : (timeoutCheck now s).frameReady = false := by rw [hc]
    rw [handOverEvents, schedCheck_frameReady, hdiscarded]
    exact .inr rfl
  · exact .inl (if_neg hnot)

/-- Settles O45: the parts of the iteration's events are those of its four stages, in order. -/
theorem iterationOutputOrder : Obligations.IterationOutputOrder := by
  intro now s hcount
  obtain ⟨drained, hdrain, hd⟩ := drain_spec s hcount
  have hraw : (schedCheck now (timeoutCheck now drained)).rawPublishEn = s.rawPublishEn :=
    ((timeoutCheck_sameBuffers now drained).trans (schedCheck_sameBuffers now _)).rawPublishEn.trans
      hd.rawPublishEn
  exact ⟨_, s.rxFifo.take (drainCount s), timeoutEvents now drained,
    scheduledEvents now (timeoutCheck now drained),
    handOverEvents (schedCheck now (timeoutCheck now drained)),
    congrArg outcomeOf (iterate_ready now s drained hdrain), iteration_trace now hdrain,
    timeoutEvents_cases now (hd.count_le_of_await hcount), scheduledEvents_cases now _,
    hraw ▸ handOverEvents_cases _, timeoutEvents_or_handOverEvents_eq_nil now drained⟩

end Sys2Proof.Machine
end

section
/-! PROOFS. The statements about 70_reset_and_hazards.md: `RESET` (R270), the launch state (R271) and the
bounds on the outputs of one instruction (R286). -/

namespace Sys2Proof.Machine

/-! ### The outputs of one instruction -/

theorem diagCount_append (xs ys : List OutEvent) :
    diagCount (xs ++ ys) = diagCount xs + diagCount ys := by
  fun_induction diagCount xs <;> simp_all [diagCount, Nat.add_right_comm]

theorem diagCount_echoEvents (bytes : List Byte) :
    diagCount (echoEvents bytes) = 2 * bytes.length := by
  induction bytes with
  | nil => rfl
  | cons b bytes ih => exact congrArg (· + 2) ih

theorem length_echoEvents (bytes : List Byte) : (echoEvents bytes).length = 2 * bytes.length := by
  simp [echoEvents, Nat.mul_comm]

/-- Among `ev` there are at most so many diagnostic characters, sent bytes, snapshots, and events in all. -/
structure OutputBound (diags sent snaps total : Nat) (ev : List OutEvent) : Prop where
  diags : diagCount ev ≤ diags
  sent : (txBytes ev).length ≤ sent
  snaps : (snapshots ev).length ≤ snaps
  total : ev.length ≤ total

namespace OutputBound

variable {d x n k d' x' n' k' : Nat} {ev ev' : List OutEvent}

theorem nil (d x n k : Nat) : OutputBound d x n k [] :=
  ⟨Nat.zero_le d, Nat.zero_le x, Nat.zero_le n, Nat.zero_le k⟩

/-- The bounds of two lists of events add up. -/
theorem append (h : OutputBound d x n k ev) (h' : OutputBound d' x' n' k' ev') :
    OutputBound (d + d') (x + x') (n + n') (k + k') (ev ++ ev') where
  diags := by rw [diagCount_append]; exact Nat.add_le_add h.diags h'.diags
  sent := by rw [txBytes_append, List.length_append]; exact Nat.add_le_add h.sent h'.sent
  snaps := by rw [snapshots_append, List.length_append]; exact Nat.add_le_add h.snaps h'.snaps
  total := by rw [List.length_append]; exact Nat.add_le_add h.total h'.total

theorem err (code : ErrCode) (info : BitVec 32) : OutputBound 0 0 0 1 [.err code info] :=
  ⟨le_rfl, le_rfl, le_rfl, le_rfl⟩

theorem requestEvents : OutputBound 0 3 0 3 requestEvents := ⟨le_rfl, le_rfl, le_rfl, le_rfl⟩

/-- The echo is two characters per byte (41_frame_assembler.md R158). -/
theorem echoEvents {bytes : List Byte} {m : Nat} (h : bytes.length ≤ m) :
    OutputBound (2 * m) 0 0 (2 * m) (echoEvents bytes) where
  diags := by rw [diagCount_echoEvents]; omega
  sent := by rw [txBytes_echoEvents]; exact le_rfl
  snaps := by rw [snapshots_echoEvents]; exact le_rfl
  total := by rw [length_echoEvents]; omega

/-- `DRAIN` accepts at most a whole frame, so it echoes 64 characters at most
(41_frame_assembler.md R154, R158). -/
theorem drainEvents (s : State) :
    OutputBound 64 0 0 64 (Machine.echoEvents (s.rxFifo.take (drainCount s))) := by
  have hframe : drainCount s ≤ 32 := by unfold drainCount; split <;> omega
  exact echoEvents ((List.length_take_le _ _).trans hframe)

theorem timeoutEvents (now : Clock) (s : State) : OutputBound 0 0 0 1 (timeoutEvents now s) := by
  unfold Machine.timeoutEvents
  split
  · exact err _ _
  · exact nil _ _ _ _

theorem scheduledEvents (now : Clock) (s : State) :
    OutputBound 0 3 0 3 (scheduledEvents now s) := by
  obtain h | h := scheduledEvents_cases now s <;> rw [h]
  · exact nil _ _ _ _
  · exact requestEvents

/-- A hand-over is one snapshot and at most one raw rendering (43_poll_scheduler.md R217). -/
theorem handOverEvents (s : State) : OutputBound 0 0 1 2 (handOverEvents s) := by
  obtain h | ⟨snapshot, h⟩ := handOverEvents_cases s <;> rw [h]
  · exact nil _ _ _ _
  · split
    · exact ⟨le_rfl, le_rfl, le_rfl, le_rfl⟩
    · exact ⟨le_rfl, le_rfl, le_rfl, Nat.le_succ 1⟩

/-- The four stages together: 64 echoed characters, one timeout, three sent bytes and one hand-over. -/
theorem iterationEvents (now : Clock) (s drained : State) :
    OutputBound 64 3 1 70 (iterationEvents now s drained) :=
  (((drainEvents s).append (timeoutEvents now drained)).append (scheduledEvents now _)).append
    (handOverEvents _)

end OutputBound

/-- From `s` to `t` the trace grew within the bounds of 70_reset_and_hazards.md R286. -/
def BoundedOutputs (s t : State) : Prop :=
  ∃ ev, t.trace = s.trace ++ ev ∧ OutputBound 64 3 1 70 ev

namespace BoundedOutputs

variable {s t : State}

/-- Events with smaller bounds are within those of R286. -/
theorem of_events {d x n k : Nat} {ev : List OutEvent} (htrace : t.trace = s.trace ++ ev)
    (h : OutputBound d x n k ev) (hd : d ≤ 64 := by decide) (hx : x ≤ 3 := by decide)
    (hn : n ≤ 1 := by decide) (hk : k ≤ 70 := by decide) : BoundedOutputs s t :=
  ⟨ev, htrace, h.diags.trans hd, h.sent.trans hx, h.snaps.trans hn, h.total.trans hk⟩

theorem of_trace_eq (h : t.trace = s.trace) : BoundedOutputs s t :=
  of_events (by rw [h, List.append_nil]) (.nil 0 0 0 0)

theorem rxAccept {b : Byte} (h : rxAccept b s = .ok t) : BoundedOutputs s t := by
  have hecho : t.trace = s.trace ++ echoEvents [b] := by
    obtain ⟨-, ⟨-, rfl⟩ | ⟨-, rfl⟩⟩ := rxAccept_ok_cases h <;> exact appendByte_trace b s
  exact of_events hecho (.echoEvents (m := 1) le_rfl)

theorem reqIssue (now : Clock) (s : State) : BoundedOutputs s (reqIssue now s) := by
  obtain ⟨-, h⟩ | ⟨-, h⟩ := reqIssue_cases now s <;> rw [h]
  · exact of_events rfl .requestEvents
  · exact of_trace_eq rfl

theorem setScanPeriod (w : BitVec 32) (s : State) : BoundedOutputs s (setScanPeriod w s) := by
  obtain ⟨-, h⟩ | ⟨-, h⟩ := setScanPeriod_cases w s <;> rw [h]
  · exact of_trace_eq rfl
  · exact of_events rfl (.err _ _)

theorem setRawPublish (w : BitVec 32) (s : State) : BoundedOutputs s (setRawPublish w s) := by
  obtain ⟨-, h⟩ | ⟨-, h⟩ | ⟨-, h⟩ := setRawPublish_cases w s <;> rw [h]
  · exact of_trace_eq rfl
  · exact of_trace_eq rfl
  · exact of_events rfl (.err _ _)

theorem iterate {ready : Bool} {now : Clock} (h : iterate ready now s = .ok t) :
    BoundedOutputs s t := by
  obtain ⟨-, rfl⟩ | ⟨-, drained, hdrain, rfl⟩ := iterate_ok_cases h
  · exact of_events rfl (.err _ _)
  · exact ⟨_, iteration_trace now hdrain, .iterationEvents now s drained⟩

/-- Every instruction emits the events of an iteration, of one of its stages or of a setter, or none. -/
theorem exec {i : Instr} (h : exec i s = .next t) : BoundedOutputs s t := by
  cases i with
  | iter => exact iterate (outcomeOf_next h)
  | drain =>
    obtain ⟨-, -, htrace⟩ := drain_ok_frame (outcomeOf_next h)
    exact of_events htrace (.drainEvents s)
  | rxAccept => exact rxAccept (outcomeOf_next h)
  | frameComplete =>
    obtain ⟨-, rfl⟩ := frameComplete_ok_cases (outcomeOf_next h)
    exact of_trace_eq rfl
  | rxArrive data => cases h; exact of_trace_eq (rxAppend_trace data s)
  | cfgScanPeriod => cases h; exact setScanPeriod _ s
  | cfgRawPublish => cases h; exact setRawPublish _ s
  | timeoutCheck now => cases h; exact of_events (timeoutCheck_trace now s) (.timeoutEvents now s)
  | reqIssue => cases h; exact reqIssue _ s
  | schedCheck now => cases h; exact of_events (schedCheck_trace now s) (.scheduledEvents now s)
  | decodePublish => cases h; exact of_events (decodePublish_trace s) (.handOverEvents s)
  | reset | fxpDecode | fxpScale | flagTest | hexDigit | decodeFrame | pressureSelect | faultFlag
  | statusExtend | descLookup | hexEcho => cases h; exact of_trace_eq rfl

end BoundedOutputs

/-- Settles O54: the largest case is an iteration, whose stages add up to the bounds. -/
theorem outputsOfOneEventAreBounded : Obligations.OutputsOfOneEventAreBounded := by
  intro i s t h
  obtain ⟨ev, htrace, hbound⟩ := BoundedOutputs.exec h
  exact ⟨ev, htrace, hbound.diags, hbound.sent, hbound.snaps, hbound.total⟩

/-! ### `RESET` and the launch state -/

/-- Settles O11: each field of the state `RESET` leaves; a buffer without entries holds no value. -/
theorem resetEventSetsEveryField : Obligations.ResetEventSetsEveryField := by
  intro s
  refine ⟨resetBlock s, rfl, ?_⟩
  simp

/-- Settles O12: both states have the reset value of every field, the period's by the same parameter. -/
theorem launchStateIsWhatResetLeaves : Obligations.LaunchStateIsWhatResetLeaves := by
  rintro c s rfl
  refine ⟨resetBlock s, rfl, ?_⟩
  simp [State.launch]

/-- The launch state meets the invariant; the period at reset fits 32 bits (00_scope.md R11). -/
theorem launch_coreInv {c : Config} (hc : c.Wf) : CoreInv (State.launch c) where
  cfg_wf := hc
  frame_wf := Memory.wf_nil
  hand_wf := Memory.wf_nil
  await_count := fun hawait => by cases hawait
  idle_count := fun _ => .inl rfl
  frame_filled := Memory.filled_zero _
  hand_whole := .inl rfl
  ready_hand := fun hready => by cases hready
  anchors_eq := rfl
  anchor_lt := modulus_pos c
  period_legal := by
    obtain ⟨-, -, -, hmax, -⟩ := hc
    exact .inl ((BitVec.toNat_ofNat ..).trans (Nat.mod_eq_of_lt (by omega)))
  fifo_le := Nat.zero_le _

/-- At launch no frame is handed over and no word has come. -/
theorem launch_hostInv {c : Config} (hc : c.Wf) : HostInv (State.launch c) :=
  ⟨launch_coreInv hc, rfl, fun _ hcode => nomatch hcode⟩

/-- Settles O13: the parameters of `State.reset` are legal ones. -/
theorem launchStateMeetsTheInvariant : Obligations.LaunchStateMeetsTheInvariant :=
  ⟨fun _ => launch_hostInv, launch_hostInv (by decide)⟩

end Sys2Proof.Machine
end
